-- ==== Sys2Proof/Word.lean ====
section
/-! DEFINITION. The two word types of the engine: the command word and the operand or response word. -/

namespace Sys2Proof

/-- The command word, `word[39:0]` (30_encoding.md R42). -/
abbrev CmdWord := BitVec 40

/-- An operand in `arg` (R42), a response's `rsp_data` (R50), or a field value as it travels over the
register port, zero-extended (20_memory.md R36). -/
abbrev Word := BitVec 32

end Sys2Proof
end

