-- ==== Sys2Proof/Config.lean ====
section
/-! DEFINITION. The implementation parameters of 00_scope.md R5. They are fixed for a run; the model carries
them in State as fields no step writes (DESIGN CHOICE, log entry 1), so a statement about every state is a
statement about every value of them. -/

namespace Sys2Proof

/-- The capability tier of the owned timer (R5). The strap value 3 is reserved (20_memory.md R31) and has no
constructor. -/
inductive Tier where
  | gp16
  | gp32
  | adv
deriving DecidableEq, Repr

/-- The static strap inputs of the engine: `tier`, `lowlevel_en`, `base_clock_hz` (20_memory.md R31). -/
structure Straps where
  tier : Tier
  lowlevelEn : Bool
  baseClockHz : Word
deriving DecidableEq, Repr

/-- `base_clock_hz` 0 is not allowed: a model refuses to build with it (20_memory.md R31, U11). -/
def Straps.legal (p : Straps) : Bool := decide (p.baseClockHz ≠ 0#32)

/-- The straps that `Machine.State.reset` stands on: the richest command set and the base clock of the spec's
vectors, 32 MHz (95_test_vectors.md). DESIGN CHOICE, unsafe (log entry 1): the spec leaves all three open. -/
def Config.straps : Straps := ⟨.adv, true, 32000000#32⟩

end Sys2Proof
end

