-- ==== Sys2Proof/Machine/Flags.lean ====
section
/-! DEFINITION. The engine has no arithmetic flags (42_alignment_policy.md R77). What stands in their place is here:
the fault codes it latches (60_exceptions.md R95) and the response statuses it answers with (30_encoding.md R50). -/

namespace Sys2Proof.Machine

/-- The fault causes of R95. Codes 8 to 15 are reserved and have no constructor; 0 means no fault. -/
inductive FaultCode where
  /-- `F_ILLEGAL_CMD` (R96). -/
  | illegalCmd
  /-- `F_UNAVAILABLE` (R97). -/
  | unavailable
  /-- `F_LIFECYCLE` (R98). -/
  | lifecycle
  /-- `F_DUTY_RANGE` (R99). -/
  | dutyRange
  /-- `F_FREQ_RANGE` (R100). -/
  | freqRange
  /-- `F_CAM_ENCODING` (R101). -/
  | camEncoding
  /-- `F_CAM_WHILE_RUNNING` (R102). -/
  | camWhileRunning
deriving DecidableEq, Repr

/-- The value latched in `FCODE` (R95). -/
def FaultCode.code : FaultCode → BitVec 4
  | .illegalCmd => 1#4
  | .unavailable => 2#4
  | .lifecycle => 3#4
  | .dutyRange => 4#4
  | .freqRange => 5#4
  | .camEncoding => 6#4
  | .camWhileRunning => 7#4

/-- `rsp_status` (R50). The value 3 is reserved, never produced, and has no constructor. -/
inductive RspStatus where
  /-- The command completed. -/
  | ok
  /-- This command raised a fault. -/
  | fault
  /-- `FAULT` was already 1 when the word was accepted. -/
  | halted
deriving DecidableEq, Repr

/-- The value on the `rsp_status` pins (R50). -/
def RspStatus.code : RspStatus → BitVec 2
  | .ok => 0#2
  | .fault => 1#2
  | .halted => 2#2

/-- A response: `rsp_status` and `rsp_data` (R50). -/
structure Response where
  status : RspStatus
  data : Word
deriving DecidableEq, Repr

end Sys2Proof.Machine
end

