-- ==== Sys2Proof/Syntax.lean ====
section
/-! DEFINITION. The 25 commands of 30_encoding.md R48 and their operand types. An operand has exactly the values
its encoding admits, so an ill-formed operand cannot be written. -/

namespace Sys2Proof

/-- `Channel`: four logical identifiers, index 0 to 3 (R44). -/
inductive Channel where
  | ch1
  | ch2
  | ch3
  | ch4
deriving DecidableEq, Repr

/-- `CenterAlignedMode`: edge-aligned and three center-aligned variants (R45). -/
inductive Cam where
  | edge
  | center1
  | center2
  | center3
deriving DecidableEq, Repr

/-- `OutputCompareMode`: the closed set of 8 variants (R46). -/
inductive Ocm where
  | frozen
  | activeOnMatch
  | inactiveOnMatch
  | toggle
  | forceInactive
  | forceActive
  | pwm1
  | pwm2
deriving DecidableEq, Repr

/-- The commands, one constructor per row of spec/opcode_table.json, in its order. -/
inductive Instr where
  /-- `INIT f, mode` (R82). -/
  | init (f : Word) (mode : Cam)
  /-- `DROP` (R83). -/
  | drop
  /-- `ENABLE ch` (R84). -/
  | enable (ch : Channel)
  /-- `DISABLE ch` (R85). -/
  | disable (ch : Channel)
  /-- `SET_FREQ f` (R86). -/
  | setFreq (f : Word)
  /-- `GET_FREQ` (R87). -/
  | getFreq
  /-- `GET_MAX_DUTY` (R88). -/
  | getMaxDuty
  /-- `SET_DUTY ch, v` (R89). -/
  | setDuty (ch : Channel) (v : Word)
  /-- `GET_DUTY ch` (R90). -/
  | getDuty (ch : Channel)
  /-- `SET_OCM ch, ocm` (R91). -/
  | setOcm (ch : Channel) (ocm : Ocm)
  /-- `SET_CAM mode` (R92). -/
  | setCam (mode : Cam)
  /-- `GET_CAM` (R93). -/
  | getCam
  /-- `LL_ENABLE_OUTPUTS b` (R57). -/
  | llEnableOutputs (b : Bool)
  /-- `LL_SET_OCM ch, ocm` (R58). -/
  | llSetOcm (ch : Channel) (ocm : Ocm)
  /-- `LL_ENABLE_CH ch, b` (R59). -/
  | llEnableCh (ch : Channel) (b : Bool)
  /-- `LL_SET_CMP ch, v` (R60). -/
  | llSetCmp (ch : Channel) (v : Word)
  /-- `LL_GET_CMP ch` (R61). -/
  | llGetCmp (ch : Channel)
  /-- `LL_GET_MAX_CMP` (R62). -/
  | llGetMaxCmp
  /-- `LL_IS_TIM_EN` (R63). -/
  | llIsTimEn
  /-- `LL_SET_TIM_EN b` (R64). -/
  | llSetTimEn (b : Bool)
  /-- `LL_SET_CAM mode` (R65). -/
  | llSetCam (mode : Cam)
  /-- `LL_GET_CAM` (R66). -/
  | llGetCam
  /-- `LL_SET_DT_CKD v` (R68). -/
  | llSetDtCkd (v : BitVec 2)
  /-- `LL_SET_DT_VAL v` (R69). -/
  | llSetDtVal (v : BitVec 8)
  /-- `LL_ENABLE_NCH ch, b` (R70). -/
  | llEnableNch (ch : Channel) (b : Bool)
deriving DecidableEq, Repr

end Sys2Proof
end

