-- ==== Sys2Proof/Decode.lean ====
section
/-! DEFINITION. The encoding of 30_encoding.md: fields and formats (R42, R43), operand codes (R44 to R47), the
opcode map (R48), the total decoder (R49, R54) and the encoder (R52). -/

namespace Sys2Proof

/-- `op = word[39:34]` (R42). -/
def opField (w : CmdWord) : BitVec 6 := w.extractLsb' 34 6

/-- `ch = word[33:32]` (R42). -/
def chField (w : CmdWord) : BitVec 2 := w.extractLsb' 32 2

/-- `arg = word[31:0]` (R42). -/
def argField (w : CmdWord) : Word := w.extractLsb' 0 32

/-- `op ++ ch ++ arg` (R52). -/
def cmdWord (op : BitVec 6) (ch : BitVec 2) (arg : Word) : CmdWord := op ++ ch ++ arg

/-- The zero-based index of a channel (R44). -/
def Channel.code : Channel → BitVec 2
  | .ch1 => 0#2
  | .ch2 => 1#2
  | .ch3 => 2#2
  | .ch4 => 3#2

/-- The channel with a given index; all four values are legal (R44). -/
def Channel.ofCode (b : BitVec 2) : Channel :=
  if b = 0#2 then .ch1 else if b = 1#2 then .ch2 else if b = 2#2 then .ch3 else .ch4

/-- The encoding of an alignment mode (R45). -/
def Cam.code : Cam → BitVec 2
  | .edge => 0#2
  | .center1 => 1#2
  | .center2 => 2#2
  | .center3 => 3#2

/-- The alignment mode a 2-bit operand spells (R45). -/
def Cam.ofCode (b : BitVec 2) : Cam :=
  if b = 0#2 then .edge else if b = 1#2 then .center1 else if b = 2#2 then .center2 else .center3

/-- The encoding of an output-compare mode (R46). -/
def Ocm.code : Ocm → BitVec 3
  | .frozen => 0#3
  | .activeOnMatch => 1#3
  | .inactiveOnMatch => 2#3
  | .toggle => 3#3
  | .forceInactive => 4#3
  | .forceActive => 5#3
  | .pwm1 => 6#3
  | .pwm2 => 7#3

/-- The output-compare mode a 3-bit operand spells (R46). -/
def Ocm.ofCode (b : BitVec 3) : Ocm :=
  if b = 0#3 then .frozen else if b = 1#3 then .activeOnMatch else if b = 2#3 then .inactiveOnMatch
  else if b = 3#3 then .toggle else if b = 4#3 then .forceInactive else if b = 5#3 then .forceActive
  else if b = 6#3 then .pwm1 else .pwm2

/-- A Boolean operand as `arg` (R47 (a)). -/
def boolArg (b : Bool) : Word := if b then 1#32 else 0#32

/-- Why a word spells no command (R49). Both are `F_ILLEGAL_CMD` (60_exceptions.md R96). -/
inductive DecodeError where
  /-- `op` is none of the 25 opcodes of R48. -/
  | unassignedOpcode
  /-- A bit that the command's format says must be 0 is set (R43). -/
  | reservedBitSet
deriving DecidableEq, Repr

/-- `i`, if the bits its format reserves are zero (R43). -/
def ifZero (reservedZero : Bool) (i : Instr) : Except DecodeError Instr :=
  if reservedZero then .ok i else .error .reservedBitSet

/-- Format `N`: `ch` and `arg` must be 0 (R43). -/
def formatN (w : CmdWord) (i : Instr) : Except DecodeError Instr :=
  ifZero (chField w == 0#2 && argField w == 0#32) i

/-- Format `C`: a channel; `arg` must be 0 (R43). -/
def formatC (w : CmdWord) (i : Channel → Instr) : Except DecodeError Instr :=
  ifZero (argField w == 0#32) (i (Channel.ofCode (chField w)))

/-- Format `A<k>`: `ch` must be 0, `arg[31:k]` must be 0 (R43). -/
def formatA (k : Nat) (w : CmdWord) (i : BitVec k → Instr) : Except DecodeError Instr :=
  ifZero (chField w == 0#2 && decide ((argField w).toNat < 2 ^ k)) (i ((argField w).setWidth k))

/-- Format `CA<k>`: a channel; `arg[31:k]` must be 0 (R43). -/
def formatCA (k : Nat) (w : CmdWord) (i : Channel → BitVec k → Instr) : Except DecodeError Instr :=
  ifZero (decide ((argField w).toNat < 2 ^ k)) (i (Channel.ofCode (chField w)) ((argField w).setWidth k))

/-- Format `I`: an alignment mode and a frequency, no reserved bit (R43). -/
def formatI (w : CmdWord) (i : Word → Cam → Instr) : Except DecodeError Instr :=
  .ok (i (argField w) (Cam.ofCode (chField w)))

/-- The decoder: total on all 2^40 words, needs no state and no parameter (R54). -/
def decode (w : CmdWord) : Except DecodeError Instr :=
  match (opField w).toNat with
  | 0x01 => formatI w .init
  | 0x02 => formatN w .drop
  | 0x03 => formatC w .enable
  | 0x04 => formatC w .disable
  | 0x05 => formatA 32 w .setFreq
  | 0x06 => formatN w .getFreq
  | 0x07 => formatN w .getMaxDuty
  | 0x08 => formatCA 32 w .setDuty
  | 0x09 => formatC w .getDuty
  | 0x0A => formatCA 3 w fun ch a => .setOcm ch (Ocm.ofCode a)
  | 0x0B => formatA 2 w fun a => .setCam (Cam.ofCode a)
  | 0x0C => formatN w .getCam
  | 0x10 => formatA 1 w fun a => .llEnableOutputs (a == 1#1)
  | 0x11 => formatCA 3 w fun ch a => .llSetOcm ch (Ocm.ofCode a)
  | 0x12 => formatCA 1 w fun ch a => .llEnableCh ch (a == 1#1)
  | 0x13 => formatCA 32 w .llSetCmp
  | 0x14 => formatC w .llGetCmp
  | 0x15 => formatN w .llGetMaxCmp
  | 0x16 => formatN w .llIsTimEn
  | 0x17 => formatA 1 w fun a => .llSetTimEn (a == 1#1)
  | 0x18 => formatA 2 w fun a => .llSetCam (Cam.ofCode a)
  | 0x19 => formatN w .llGetCam
  | 0x20 => formatA 2 w .llSetDtCkd
  | 0x21 => formatA 8 w .llSetDtVal
  | 0x22 => formatCA 1 w fun ch a => .llEnableNch ch (a == 1#1)
  | _ => .error .unassignedOpcode

/-- The word of a command, written from the patterns of R48. -/
def encode : Instr → CmdWord
  | .init f mode => cmdWord 0x01#6 mode.code f
  | .drop => cmdWord 0x02#6 0#2 0#32
  | .enable ch => cmdWord 0x03#6 ch.code 0#32
  | .disable ch => cmdWord 0x04#6 ch.code 0#32
  | .setFreq f => cmdWord 0x05#6 0#2 f
  | .getFreq => cmdWord 0x06#6 0#2 0#32
  | .getMaxDuty => cmdWord 0x07#6 0#2 0#32
  | .setDuty ch v => cmdWord 0x08#6 ch.code v
  | .getDuty ch => cmdWord 0x09#6 ch.code 0#32
  | .setOcm ch ocm => cmdWord 0x0A#6 ch.code (ocm.code.setWidth 32)
  | .setCam mode => cmdWord 0x0B#6 0#2 (mode.code.setWidth 32)
  | .getCam => cmdWord 0x0C#6 0#2 0#32
  | .llEnableOutputs b => cmdWord 0x10#6 0#2 (boolArg b)
  | .llSetOcm ch ocm => cmdWord 0x11#6 ch.code (ocm.code.setWidth 32)
  | .llEnableCh ch b => cmdWord 0x12#6 ch.code (boolArg b)
  | .llSetCmp ch v => cmdWord 0x13#6 ch.code v
  | .llGetCmp ch => cmdWord 0x14#6 ch.code 0#32
  | .llGetMaxCmp => cmdWord 0x15#6 0#2 0#32
  | .llIsTimEn => cmdWord 0x16#6 0#2 0#32
  | .llSetTimEn b => cmdWord 0x17#6 0#2 (boolArg b)
  | .llSetCam mode => cmdWord 0x18#6 0#2 (mode.code.setWidth 32)
  | .llGetCam => cmdWord 0x19#6 0#2 0#32
  | .llSetDtCkd v => cmdWord 0x20#6 0#2 (v.setWidth 32)
  | .llSetDtVal v => cmdWord 0x21#6 0#2 (v.setWidth 32)
  | .llEnableNch ch b => cmdWord 0x22#6 ch.code (boolArg b)

/-- The three command groups of R42: `op[5:4]`, 3 reserved. -/
inductive Group where
  | driver
  | base
  | complementary
deriving DecidableEq, Repr

/-- The group of a command: `op[5:4]` of its word (R42); 3 is never spelled by a command (R49). -/
def Instr.group (i : Instr) : Group :=
  match ((opField (encode i)).extractLsb' 4 2).toNat with
  | 0 => .driver
  | 1 => .base
  | _ => .complementary

/-- A row of the opcode map: `word & mask = value` exactly for the words that spell the command (R48). -/
structure OpcodeRow where
  mnemonic : String
  value : CmdWord
  mask : CmdWord
deriving DecidableEq, Repr

/-- Whether a word matches a row (R49, R54). -/
def OpcodeRow.hits (r : OpcodeRow) (w : CmdWord) : Bool := w &&& r.mask == r.value

/-- The `match` and `mask` columns of R48. -/
def opcodeMap : List OpcodeRow :=
  [⟨"INIT", 0x0400000000#40, 0xFC00000000#40⟩,
   ⟨"DROP", 0x0800000000#40, 0xFFFFFFFFFF#40⟩,
   ⟨"ENABLE", 0x0C00000000#40, 0xFCFFFFFFFF#40⟩,
   ⟨"DISABLE", 0x1000000000#40, 0xFCFFFFFFFF#40⟩,
   ⟨"SET_FREQ", 0x1400000000#40, 0xFF00000000#40⟩,
   ⟨"GET_FREQ", 0x1800000000#40, 0xFFFFFFFFFF#40⟩,
   ⟨"GET_MAX_DUTY", 0x1C00000000#40, 0xFFFFFFFFFF#40⟩,
   ⟨"SET_DUTY", 0x2000000000#40, 0xFC00000000#40⟩,
   ⟨"GET_DUTY", 0x2400000000#40, 0xFCFFFFFFFF#40⟩,
   ⟨"SET_OCM", 0x2800000000#40, 0xFCFFFFFFF8#40⟩,
   ⟨"SET_CAM", 0x2C00000000#40, 0xFFFFFFFFFC#40⟩,
   ⟨"GET_CAM", 0x3000000000#40, 0xFFFFFFFFFF#40⟩] ++
  [⟨"LL_ENABLE_OUTPUTS", 0x4000000000#40, 0xFFFFFFFFFE#40⟩,
   ⟨"LL_SET_OCM", 0x4400000000#40, 0xFCFFFFFFF8#40⟩,
   ⟨"LL_ENABLE_CH", 0x4800000000#40, 0xFCFFFFFFFE#40⟩,
   ⟨"LL_SET_CMP", 0x4C00000000#40, 0xFC00000000#40⟩,
   ⟨"LL_GET_CMP", 0x5000000000#40, 0xFCFFFFFFFF#40⟩,
   ⟨"LL_GET_MAX_CMP", 0x5400000000#40, 0xFFFFFFFFFF#40⟩,
   ⟨"LL_IS_TIM_EN", 0x5800000000#40, 0xFFFFFFFFFF#40⟩,
   ⟨"LL_SET_TIM_EN", 0x5C00000000#40, 0xFFFFFFFFFE#40⟩,
   ⟨"LL_SET_CAM", 0x6000000000#40, 0xFFFFFFFFFC#40⟩,
   ⟨"LL_GET_CAM", 0x6400000000#40, 0xFFFFFFFFFF#40⟩,
   ⟨"LL_SET_DT_CKD", 0x8000000000#40, 0xFFFFFFFFFC#40⟩,
   ⟨"LL_SET_DT_VAL", 0x8400000000#40, 0xFFFFFFFF00#40⟩,
   ⟨"LL_ENABLE_NCH", 0x8800000000#40, 0xFCFFFFFFFE#40⟩]

/-- The word presented for a table row whose low `nbits` bits are `w` and whose other bits are 0 (log entry 15). -/
def tableWord (nbits w : Nat) : CmdWord := BitVec.ofNat 40 (w % 2 ^ nbits)

/-- The instruction the decoder reads from a table row's word. -/
def decodeTableWord (nbits w : Nat) : Option Instr := (decode (tableWord nbits w)).toOption

end Sys2Proof
end

