-- ==== Sys2Proof/Machine/Policy.lean ====
section
/-! DEFINITION. The alignment-mode policy and the frequency arithmetic (42_alignment_policy.md): pure functions, on
unbounded naturals with floor division (R77). -/

namespace Sys2Proof.Machine

/-- `W`: 16 on `GP16` and `ADV`, 32 on `GP32` (00_scope.md R5). -/
def width : Tier → Nat
  | .gp16 => 16
  | .gp32 => 32
  | .adv => 16

/-- `MAXP = 2^W - 1` (00_scope.md R5). -/
def maxp (t : Tier) : Nat := 2 ^ width t - 1

/-- `scale(m)` (R73). -/
def scale : Cam → Nat
  | .edge => 1
  | .center1 => 2
  | .center2 => 2
  | .center3 => 2

/-- `decode_cam(b)` (R74), on the bits as the register port delivers them, so that the arm for an encoding outside
the four is kept as R74 asks although the 2-bit `CMS` never reaches it (log entry 11). -/
def decodeCam (b : Word) : Except FaultCode Cam :=
  if b = 0#32 then .ok .edge
  else if b = 1#32 then .ok .center1
  else if b = 2#32 then .ok .center2
  else if b = 3#32 then .ok .center3
  else .error .camEncoding

/-- `period_from_freq(f, m)` (R75): never wraps, saturates or truncates; faults where the formula gives no `W`-bit
value. -/
def periodFromFreq (p : Straps) (f : Nat) (m : Cam) : Except FaultCode Nat :=
  if f = 0 then .error .freqRange
  else
    let q := p.baseClockHz.toNat / (f * scale m)
    if q = 0 then .error .freqRange
    else if q - 1 > maxp p.tier then .error .freqRange
    else .ok (q - 1)

/-- `freq_from_period(P, m)` (R76): never faults. -/
def freqFromPeriod (p : Straps) (period : Nat) (m : Cam) : Nat :=
  p.baseClockHz.toNat / ((period + 1) * scale m)

end Sys2Proof.Machine
end

