-- ==== Sys2Proof/Machine/Timer.lean ====
section
/-! DEFINITION. The timer control-register block: its named fields (10_state.md R16 to R24), the register port's
read and write of one field (20_memory.md R32, R33, R36), and its reset values (R28, 70_reset_and_hazards.md R113). -/

namespace Sys2Proof.Machine

/-- One value per channel (R44). -/
structure PerChannel (α : Type) where
  ch1 : α
  ch2 : α
  ch3 : α
  ch4 : α
deriving DecidableEq, Repr

/-- The same value on every channel. -/
def PerChannel.const {α : Type} (a : α) : PerChannel α := ⟨a, a, a, a⟩

/-- The value of one channel. -/
def PerChannel.get {α : Type} (p : PerChannel α) : Channel → α
  | .ch1 => p.ch1
  | .ch2 => p.ch2
  | .ch3 => p.ch3
  | .ch4 => p.ch4

/-- One channel's value replaced. -/
def PerChannel.set {α : Type} (p : PerChannel α) (c : Channel) (a : α) : PerChannel α :=
  match c with
  | .ch1 => { p with ch1 := a }
  | .ch2 => { p with ch2 := a }
  | .ch3 => { p with ch3 := a }
  | .ch4 => { p with ch4 := a }

/-- The names by which the register port addresses a field (20_memory.md R32). -/
inductive Field where
  | cen
  | cms
  | arr
  | ccr (ch : Channel)
  | ocm (ch : Channel)
  | cce (ch : Channel)
  | moe
  | ccne (ch : Channel)
  | dtg
  | ckd
deriving DecidableEq, Repr

/-- The width of a field (20_memory.md R36). -/
def Field.width (t : Tier) : Field → Nat
  | .cen => 1
  | .cms => 2
  | .arr => Machine.width t
  | .ccr _ => Machine.width t
  | .ocm _ => 3
  | .cce _ => 1
  | .moe => 1
  | .ccne _ => 1
  | .dtg => 8
  | .ckd => 2

/-- Which fields exist on a tier (10_state.md R25). -/
def Field.present (t : Tier) : Field → Bool
  | .moe => decide (t = .adv)
  | .ccne _ => decide (t = .adv)
  | .dtg => decide (t = .adv)
  | .ckd => decide (t = .adv)
  | _ => true

/-- The control-register block of the owned timer (10_state.md R16 to R24). `arr` and `ccr` are held in 32 bits on
every tier, zero-extended on a 16-bit one (DESIGN CHOICE, log entry 8); the fields a GP tier lacks are carried at 0
there, and nothing writes or reads them (R25, log entry 9). -/
structure Timer where
  /-- `CEN`: the counter runs (R16). -/
  cen : Bool
  /-- `CMS`: the alignment mode's encoding (R17). -/
  cms : BitVec 2
  /-- `ARR`: the period (R18). -/
  arr : Word
  /-- `CCR[0..3]`: the compare values (R19). -/
  ccr : PerChannel Word
  /-- `OCM[0..3]`: the output-compare modes' encodings (R20). -/
  ocm : PerChannel (BitVec 3)
  /-- `CCE[0..3]`: the channel output enables (R21). -/
  cce : PerChannel Bool
  /-- `MOE`: the master output enable, `ADV` only (R22). -/
  moe : Bool
  /-- `CCNE[0..3]`: the complementary output enables, `ADV` only (R23). -/
  ccne : PerChannel Bool
  /-- `DTG`: the dead-time value, `ADV` only (R24). -/
  dtg : BitVec 8
  /-- `CKD`: the dead-time clock division, `ADV` only (R24). -/
  ckd : BitVec 2
deriving DecidableEq, Repr

/-- The value a read of a field delivers: the whole field, zero-extended (20_memory.md R33, R36). -/
def Timer.read (t : Timer) : Field → Word
  | .cen => boolArg t.cen
  | .cms => t.cms.setWidth 32
  | .arr => t.arr
  | .ccr ch => t.ccr.get ch
  | .ocm ch => (t.ocm.get ch).setWidth 32
  | .cce ch => boolArg (t.cce.get ch)
  | .moe => boolArg t.moe
  | .ccne ch => boolArg (t.ccne.get ch)
  | .dtg => t.dtg.setWidth 32
  | .ckd => t.ckd.setWidth 32

/-- A write of a field: it takes effect at once and changes no other field (20_memory.md R33). Every rule guarantees
that the value fits the field (R36). -/
def Timer.write (t : Timer) (f : Field) (v : Word) : Timer :=
  match f with
  | .cen => { t with cen := v.getLsbD 0 }
  | .cms => { t with cms := v.setWidth 2 }
  | .arr => { t with arr := v }
  | .ccr ch => { t with ccr := t.ccr.set ch v }
  | .ocm ch => { t with ocm := t.ocm.set ch (v.setWidth 3) }
  | .cce ch => { t with cce := t.cce.set ch (v.getLsbD 0) }
  | .moe => { t with moe := v.getLsbD 0 }
  | .ccne ch => { t with ccne := t.ccne.set ch (v.getLsbD 0) }
  | .dtg => { t with dtg := v.setWidth 8 }
  | .ckd => { t with ckd := v.setWidth 2 }

/-- Every timer field at its reset value (10_state.md R28; the same at system reset, R112, and at peripheral reset,
R113). `ARR = MAXP` is the value the spec writes; it allows any (U9, log entry 12). -/
def Timer.atReset (t : Tier) : Timer where
  cen := false
  cms := 0#2
  arr := BitVec.ofNat 32 (maxp t)
  ccr := PerChannel.const 0#32
  ocm := PerChannel.const 0#3
  cce := PerChannel.const false
  moe := false
  ccne := PerChannel.const false
  dtg := 0#8
  ckd := 0#2

end Sys2Proof.Machine
end

