-- ==== Sys2Proof/Machine/State.lean ====
section
/-! DEFINITION. The state of the modelled system as plain data (10_state.md R10): the engine's own state, the timer
register block, and the model's own fields for the straps and the ports (20_memory.md R31). -/

namespace Sys2Proof.Machine

/-- `LIFE` (R13). -/
inductive Life where
  | unowned
  | owned
deriving DecidableEq, Repr

/-- What the host does at the engine's pins, one event a step (DESIGN CHOICE, log entries 3 and 5). -/
inductive HostEvent where
  /-- `cmd_valid` with `cmd_word`: one command word is presented and accepted (20_memory.md R31, R41). -/
  | cmd (word : CmdWord)
  /-- `rst`: system reset is asserted and released (70_reset_and_hazards.md R112). -/
  | rst
deriving DecidableEq, Repr

/-- An operation on the register port, with the value that passes (20_memory.md R32). -/
inductive RegOp where
  /-- `RegRd(F)`, which delivered `v`. -/
  | rd (f : Field) (v : Word)
  /-- `RegWr(F, v)`. -/
  | wr (f : Field) (v : Word)
  /-- `PeriphReset()`. -/
  | periphReset
deriving DecidableEq, Repr

/-- The state. Not the spec's state, but the model's own fields: `straps` (R5 makes them parameters), `input`,
`rsp`, `port` (the pins of R31). -/
structure State where
  /-- The static straps: no step writes them (R5, U12; log entry 1). -/
  straps : Straps
  /-- `LIFE` (R13). -/
  life : Life
  /-- `CLK_EN` (R14). -/
  clkEn : Bool
  /-- `FAULT` (R15). -/
  fault : Bool
  /-- `FCODE` (R15). -/
  fcode : BitVec 4
  /-- `FWORD` (R15). -/
  fword : CmdWord
  /-- The timer control-register block (R16 to R24). -/
  tim : Timer
  /-- What the host has still to present, oldest first (log entry 3). -/
  input : List HostEvent
  /-- The response the last step presented, `none` if it presented none (R50; log entry 6). -/
  rsp : Option Response
  /-- The register-port operations of the last step, oldest first (R38; log entry 7). -/
  port : List RegOp
deriving DecidableEq, Repr

/-- No step stops with a fault: the spec's fault is a latched, answered effect (60_exceptions.md R103), a next state.
The type has no constructor (safe: nothing that runs is hidden behind one). -/
inductive Fault where
deriving DecidableEq, Repr

/-- The reasons for which the model refuses to run. -/
inductive Refusal where
  /-- An instruction whose meaning is not written yet; no arm of `exec` answers with it (safe). -/
  | notModelled (mnemonic : String)
  /-- `step` raises it when the `base_clock_hz` strap is 0: a model refuses to build with it (20_memory.md R31, U11).
  Safe: the spec gives such an engine no behaviour. -/
  | illegalStraps
deriving DecidableEq, Repr

/-- The engine after system reset on given straps (10_state.md R28, R112). -/
def State.afterReset (p : Straps) : State where
  straps := p
  life := .unowned
  clkEn := false
  fault := false
  fcode := 0#4
  fword := 0#40
  tim := Timer.atReset p.tier
  input := []
  rsp := none
  port := []

/-- The machine right after reset, on the straps of log entry 1. -/
def State.reset : State := State.afterReset Config.straps

end Sys2Proof.Machine
end

