-- ==== Sys2Proof/Machine/Operands.lean ====
section
/-! DEFINITION. Operand forms at run time: the values operands put on the register port (30_encoding.md R44 to R47),
the operand-width check (R51 step 5), and the sampling of the strap pins (20_memory.md R31). -/

namespace Sys2Proof.Machine

/-- An alignment mode as it stands in `CMS` and in a response (R45). -/
def camValue (m : Cam) : Word := m.code.setWidth 32

/-- An output-compare mode as it stands in `OCM[i]` (R46). -/
def ocmValue (m : Ocm) : Word := m.code.setWidth 32

/-- The operand-width check of `SET_DUTY` and `LL_SET_CMP`: on a 16-bit tier `arg[31:16]` must be 0 (R47 (c), R51
step 5). -/
def operandFault (t : Tier) (v : Word) : Option FaultCode :=
  if width t = 16 ∧ v.extractLsb' 16 16 ≠ 0#16 then some .illegalCmd else none

/-- The tier that the `tier` pins select; 3 is reserved (20_memory.md R31). -/
def tierOfPins (b : BitVec 2) : Option Tier :=
  if b = 0#2 then some .gp16 else if b = 1#2 then some .gp32 else if b = 2#2 then some .adv else none

/-- The straps sampled from the pins; a reserved tier or a zero base clock builds no engine (20_memory.md R31, U11). -/
def strapsOfPins (tier : BitVec 2) (lowlevelEn : Bool) (baseClockHz : Word) : Option Straps :=
  match tierOfPins tier with
  | none => none
  | some t => if baseClockHz = 0#32 then none else some ⟨t, lowlevelEn, baseClockHz⟩

end Sys2Proof.Machine
end

