-- ==== Sys2Proof/Machine/Ops.lean ====
section
/-! DEFINITION. The named operations every meaning is written over: the register port (00_scope.md R8), the response
(30_encoding.md R50), taking a fault (60_exceptions.md R103), the checks of the command cycle (30_encoding.md R51),
and system reset (70_reset_and_hazards.md R112), the only return from a fault (R105). -/

namespace Sys2Proof.Machine

/-- What running a command's pseudocode comes to. -/
inductive Result where
  /-- It reached its end, with the data of its `OK` response. -/
  | done (data : Word) (s : State)
  /-- It raised a fault in this state; the writes made so far stay (R103). -/
  | raised (c : FaultCode) (s : State)

/-- `respond(status, data)` (R50). -/
def respond (status : RspStatus) (data : Word) (s : State) : State :=
  { s with rsp := some ⟨status, data⟩ }

/-- `raise Fault(c)` while processing `word` (R103): latch `FAULT`, `FCODE`, `FWORD`, answer `FAULT`, change nothing
else. -/
def raiseFault (word : CmdWord) (c : FaultCode) (s : State) : State :=
  respond .fault (c.code.setWidth 32) { s with fault := true, fcode := c.code, fword := word }

/-- The answer to a word accepted while `FAULT = 1` (R104): nothing else changes. -/
def answerHalted (s : State) : State := respond .halted (s.fcode.setWidth 32) s

/-- The end of a command's processing: one response, `OK` or `FAULT` (R50, R51). -/
def conclude (word : CmdWord) : Result → Host.Outcome State Fault Refusal
  | .done data s => .next (respond .ok data s)
  | .raised c s => .next (raiseFault word c s)

/-- A check that reads state and writes none (R51 steps 3 to 5), before the rest of the command. -/
def check (c : Option FaultCode) (s : State) (rest : Result) : Result :=
  match c with
  | some code => .raised code s
  | none => rest

/-- `RegWr(F, v)` on the register port (R33). -/
def regWr (f : Field) (v : Word) (s : State) : State :=
  { s with tim := s.tim.write f v, port := s.port ++ [.wr f v] }

/-- `RegRd(F)` on the register port (R33): the rest of the command goes on with the value. -/
def regRd (f : Field) (s : State) (rest : Word → State → Result) : Result :=
  rest (s.tim.read f) { s with port := s.port ++ [.rd f (s.tim.read f)] }

/-- `PeriphReset()`: every timer field takes its reset value in one operation; the engine's own state is not touched
(70_reset_and_hazards.md R113). -/
def periphReset (s : State) : State :=
  { s with tim := Timer.atReset s.straps.tier, port := s.port ++ [.periphReset] }

/-- `m <- decode_cam(b)` (42_alignment_policy.md R74). -/
def withCam (b : Word) (s : State) (rest : Cam → Result) : Result :=
  match decodeCam b with
  | .ok m => rest m
  | .error c => .raised c s

/-- `P <- period_from_freq(f, m)`, as the value to be written to `ARR` (R75). -/
def withPeriod (f : Nat) (m : Cam) (s : State) (rest : Word → Result) : Result :=
  match periodFromFreq s.straps f m with
  | .ok p => rest (BitVec.ofNat 32 p)
  | .error c => .raised c s

/-- `enable_outputs(b)`: writes `MOE` on `ADV`, nothing on the GP tiers (R22, R57). -/
def enableOutputs (b : Bool) (s : State) : State :=
  if s.straps.tier = .adv then regWr .moe (boolArg b) s else s

/-- R51 step 3, the availability of a group (60_exceptions.md R97, R108). -/
def availabilityFault (g : Group) (p : Straps) : Option FaultCode :=
  match g with
  | .driver => none
  | .base => if p.lowlevelEn then none else some .unavailable
  | .complementary => if p.lowlevelEn ∧ p.tier = .adv then none else some .unavailable

/-- R51 step 4 for `INIT`: it needs `LIFE = UNOWNED` (43_driver_commands.md R81). -/
def initLifecycleFault (s : State) : Option FaultCode :=
  match s.life with
  | .unowned => none
  | .owned => some .lifecycle

/-- R51 step 4 for a group-0 command but `INIT`: it needs `LIFE = OWNED`, and `CLK_EN` is not checked (R81). -/
def driverLifecycleFault (s : State) : Option FaultCode :=
  match s.life with
  | .owned => none
  | .unowned => some .lifecycle

/-- R51 step 4 for groups 1 and 2: they need `CLK_EN = 1` and do not read `LIFE` (40_capability_commands.md R56,
41_complementary_commands.md R67). -/
def lowLevelLifecycleFault (s : State) : Option FaultCode :=
  if s.clkEn then none else some .lifecycle

/-- The common conditions of a group-0 command but `INIT` (R81). -/
def driverCommand (s : State) (rest : Result) : Result :=
  check (availabilityFault .driver s.straps) s <| check (driverLifecycleFault s) s rest

/-- The common conditions of a group-1 command (R56). -/
def baseCommand (s : State) (rest : Result) : Result :=
  check (availabilityFault .base s.straps) s <| check (lowLevelLifecycleFault s) s rest

/-- The common conditions of a group-2 command (R67). -/
def complementaryCommand (s : State) (rest : Result) : Result :=
  check (availabilityFault .complementary s.straps) s <| check (lowLevelLifecycleFault s) s rest

/-- System reset: all state takes its system-reset value and the straps stay; no response; the words the host has
still to present stay (70_reset_and_hazards.md R112). -/
def systemReset (s : State) : State := { State.afterReset s.straps with input := s.input }

/-- The host's next event leaves the stream and the output ports are cleared, before the step acts on it (20_memory.md
R31, R41). -/
def State.take (s : State) (rest : List HostEvent) : State :=
  { s with input := rest, rsp := none, port := [] }

end Sys2Proof.Machine
end

