-- ==== Sys2Proof/Machine/Capability.lean ====
section
/-! DEFINITION. The meanings of the ten base capability commands, group 1 (40_capability_commands.md R56 to R66): steps
3 to 6 of the command cycle (30_encoding.md R51). -/

namespace Sys2Proof.Machine

/-- `LL_ENABLE_OUTPUTS b` (R57): accepted on every tier, writes only on `ADV`. -/
def execLlEnableOutputs (b : Bool) (s : State) : Host.Outcome State Fault Refusal :=
  conclude (encode (.llEnableOutputs b)) <| baseCommand s <| .done 0#32 (enableOutputs b s)

/-- `LL_SET_OCM ch, ocm` (R58). -/
def execLlSetOcm (ch : Channel) (ocm : Ocm) (s : State) : Host.Outcome State Fault Refusal :=
  conclude (encode (.llSetOcm ch ocm)) <| baseCommand s <| .done 0#32 (regWr (.ocm ch) (ocmValue ocm) s)

/-- `LL_ENABLE_CH ch, b` (R59). -/
def execLlEnableCh (ch : Channel) (b : Bool) (s : State) : Host.Outcome State Fault Refusal :=
  conclude (encode (.llEnableCh ch b)) <| baseCommand s <| .done 0#32 (regWr (.cce ch) (boolArg b) s)

/-- `LL_SET_CMP ch, v` (R60): not range-checked. -/
def execLlSetCmp (ch : Channel) (v : Word) (s : State) : Host.Outcome State Fault Refusal :=
  conclude (encode (.llSetCmp ch v)) <| baseCommand s <| check (operandFault s.straps.tier v) s <|
    .done 0#32 (regWr (.ccr ch) v s)

/-- `LL_GET_CMP ch` (R61). -/
def execLlGetCmp (ch : Channel) (s : State) : Host.Outcome State Fault Refusal :=
  conclude (encode (.llGetCmp ch)) <| baseCommand s <| regRd (.ccr ch) s .done

/-- `LL_GET_MAX_CMP` (R62). -/
def execLlGetMaxCmp (s : State) : Host.Outcome State Fault Refusal :=
  conclude (encode .llGetMaxCmp) <| baseCommand s <| regRd .arr s .done

/-- `LL_IS_TIM_EN` (R63). -/
def execLlIsTimEn (s : State) : Host.Outcome State Fault Refusal :=
  conclude (encode .llIsTimEn) <| baseCommand s <| regRd .cen s .done

/-- `LL_SET_TIM_EN b` (R64). -/
def execLlSetTimEn (b : Bool) (s : State) : Host.Outcome State Fault Refusal :=
  conclude (encode (.llSetTimEn b)) <| baseCommand s <| .done 0#32 (regWr .cen (boolArg b) s)

/-- `LL_SET_CAM mode` (R65): refuses a running counter, does not rescale. -/
def execLlSetCam (mode : Cam) (s : State) : Host.Outcome State Fault Refusal :=
  conclude (encode (.llSetCam mode)) <| baseCommand s <|
    regRd .cen s fun cen s =>
      if cen = 1#32 then .raised .camWhileRunning s
      else .done 0#32 (regWr .cms (camValue mode) s)

/-- `LL_GET_CAM` (R66). -/
def execLlGetCam (s : State) : Host.Outcome State Fault Refusal :=
  conclude (encode .llGetCam) <| baseCommand s <|
    regRd .cms s fun b s =>
    withCam b s fun m =>
      .done (camValue m) s

end Sys2Proof.Machine
end

