-- ==== Sys2Proof/Machine/Complementary.lean ====
section
/-! DEFINITION. The meanings of the three complementary capability commands, group 2 (41_complementary_commands.md R67
to R72): steps 3 to 6 of the command cycle (30_encoding.md R51). The dead-time values are stored and given no
meaning (R71). -/

namespace Sys2Proof.Machine

/-- `LL_SET_DT_CKD v` (R68). -/
def execLlSetDtCkd (v : BitVec 2) (s : State) : Host.Outcome State Fault Refusal :=
  conclude (encode (.llSetDtCkd v)) <| complementaryCommand s <| .done 0#32 (regWr .ckd (v.setWidth 32) s)

/-- `LL_SET_DT_VAL v` (R69). -/
def execLlSetDtVal (v : BitVec 8) (s : State) : Host.Outcome State Fault Refusal :=
  conclude (encode (.llSetDtVal v)) <| complementaryCommand s <| .done 0#32 (regWr .dtg (v.setWidth 32) s)

/-- `LL_ENABLE_NCH ch, b` (R70). -/
def execLlEnableNch (ch : Channel) (b : Bool) (s : State) : Host.Outcome State Fault Refusal :=
  conclude (encode (.llEnableNch ch b)) <| complementaryCommand s <| .done 0#32 (regWr (.ccne ch) (boolArg b) s)

end Sys2Proof.Machine
end

