-- ==== Sys2Proof/Machine/Driver.lean ====
section
/-! DEFINITION. The meanings of the twelve driver commands, group 0 (43_driver_commands.md R81 to R93): steps 3 to 6 of
the command cycle (30_encoding.md R51). The word a fault latches is the command's own, its one spelling (R49, log
entry 10). -/

namespace Sys2Proof.Machine

/-- `INIT f, mode` (R82). -/
def execInit (f : Word) (mode : Cam) (s : State) : Host.Outcome State Fault Refusal :=
  conclude (encode (.init f mode)) <|
  check (availabilityFault .driver s.straps) s <| check (initLifecycleFault s) s <|
    let s := { s with clkEn := true }
    let s := periphReset s
    let s := regWr .cms (camValue mode) s
    withPeriod f.toNat mode s fun p =>
      let s := regWr .arr p s
      let s := regWr .cen (boolArg true) s
      let s := enableOutputs true s
      let s := regWr (.ocm .ch1) (ocmValue .pwm1) s
      let s := regWr (.ocm .ch2) (ocmValue .pwm1) s
      let s := regWr (.ocm .ch3) (ocmValue .pwm1) s
      let s := regWr (.ocm .ch4) (ocmValue .pwm1) s
      .done 0#32 { s with life := .owned }

/-- `DROP` (R83): no register operation at all. -/
def execDrop (s : State) : Host.Outcome State Fault Refusal :=
  conclude (encode .drop) <| driverCommand s <| .done 0#32 { s with life := .unowned }

/-- `ENABLE ch` (R84): it sets the bit, it does not invert it. -/
def execEnable (ch : Channel) (s : State) : Host.Outcome State Fault Refusal :=
  conclude (encode (.enable ch)) <| driverCommand s <| .done 0#32 (regWr (.cce ch) (boolArg true) s)

/-- `DISABLE ch` (R85). -/
def execDisable (ch : Channel) (s : State) : Host.Outcome State Fault Refusal :=
  conclude (encode (.disable ch)) <| driverCommand s <| .done 0#32 (regWr (.cce ch) (boolArg false) s)

/-- `SET_FREQ f` (R86). -/
def execSetFreq (f : Word) (s : State) : Host.Outcome State Fault Refusal :=
  conclude (encode (.setFreq f)) <| driverCommand s <|
    regRd .cms s fun b s =>
    withCam b s fun m =>
    withPeriod f.toNat m s fun p =>
      .done 0#32 (regWr .arr p s)

/-- `GET_FREQ` (R87). -/
def execGetFreq (s : State) : Host.Outcome State Fault Refusal :=
  conclude (encode .getFreq) <| driverCommand s <|
    regRd .cms s fun b s =>
    withCam b s fun m =>
    regRd .arr s fun p s =>
      .done (BitVec.ofNat 32 (freqFromPeriod s.straps p.toNat m)) s

/-- `GET_MAX_DUTY` (R88). -/
def execGetMaxDuty (s : State) : Host.Outcome State Fault Refusal :=
  conclude (encode .getMaxDuty) <| driverCommand s <| regRd .arr s .done

/-- `SET_DUTY ch, v` (R89): the bound is strict. -/
def execSetDuty (ch : Channel) (v : Word) (s : State) : Host.Outcome State Fault Refusal :=
  conclude (encode (.setDuty ch v)) <| driverCommand s <| check (operandFault s.straps.tier v) s <|
    regRd .arr s fun arr s =>
      if v.toNat ≥ arr.toNat then .raised .dutyRange s
      else .done 0#32 (regWr (.ccr ch) v s)

/-- `GET_DUTY ch` (R90): the stored value, unchecked. -/
def execGetDuty (ch : Channel) (s : State) : Host.Outcome State Fault Refusal :=
  conclude (encode (.getDuty ch)) <| driverCommand s <| regRd (.ccr ch) s .done

/-- `SET_OCM ch, ocm` (R91). -/
def execSetOcm (ch : Channel) (ocm : Ocm) (s : State) : Host.Outcome State Fault Refusal :=
  conclude (encode (.setOcm ch ocm)) <| driverCommand s <| .done 0#32 (regWr (.ocm ch) (ocmValue ocm) s)

/-- `SET_CAM mode` (R92), the rescaling variant; the rescaling goes through the frequency (90_conflicts.md C1). Steps
2, 3 and 5 run also when the mode does not change (D22). -/
def execSetCam (mode : Cam) (s : State) : Host.Outcome State Fault Refusal :=
  conclude (encode (.setCam mode)) <| driverCommand s <|
    regRd .cms s fun b s =>
    withCam b s fun old =>
    regRd .arr s fun p0 s =>
      let f0 := freqFromPeriod s.straps p0.toNat old
      let s := regWr .cen (boolArg false) s
      let s := regWr .cms (camValue mode) s
      if scale mode ≠ scale old then
        withPeriod f0 mode s fun p1 =>
          let s := regWr .arr p1 s
          .done 0#32 (regWr .cen (boolArg true) s)
      else .done 0#32 (regWr .cen (boolArg true) s)

/-- `GET_CAM` (R93). -/
def execGetCam (s : State) : Host.Outcome State Fault Refusal :=
  conclude (encode .getCam) <| driverCommand s <|
    regRd .cms s fun b s =>
    withCam b s fun m =>
      .done (camValue m) s

end Sys2Proof.Machine
end

