-- ==== Sys2Proof/Machine/Dispatch.lean ====
section
/-! DEFINITION. The meaning of a decoded command in a state: steps 3 to 6 of the command cycle (30_encoding.md R51).
Steps 1 and 2, the halted check and the decoding, stand before it in Machine/Cycle.lean (log entry 13). -/

namespace Sys2Proof.Machine

def exec (i : Instr) (s : State) : Host.Outcome State Fault Refusal :=
  match i with
  -- group 0, driver
  | .init f mode => Sys2Proof.Machine.execInit f mode s
  | .drop => Sys2Proof.Machine.execDrop s
  | .enable ch => Sys2Proof.Machine.execEnable ch s
  | .disable ch => Sys2Proof.Machine.execDisable ch s
  | .setFreq f => Sys2Proof.Machine.execSetFreq f s
  | .getFreq => Sys2Proof.Machine.execGetFreq s
  | .getMaxDuty => Sys2Proof.Machine.execGetMaxDuty s
  | .setDuty ch v => Sys2Proof.Machine.execSetDuty ch v s
  | .getDuty ch => Sys2Proof.Machine.execGetDuty ch s
  | .setOcm ch ocm => Sys2Proof.Machine.execSetOcm ch ocm s
  | .setCam mode => Sys2Proof.Machine.execSetCam mode s
  | .getCam => Sys2Proof.Machine.execGetCam s
  -- group 1, base capability
  | .llEnableOutputs b => Sys2Proof.Machine.execLlEnableOutputs b s
  | .llSetOcm ch ocm => Sys2Proof.Machine.execLlSetOcm ch ocm s
  | .llEnableCh ch b => Sys2Proof.Machine.execLlEnableCh ch b s
  | .llSetCmp ch v => Sys2Proof.Machine.execLlSetCmp ch v s
  | .llGetCmp ch => Sys2Proof.Machine.execLlGetCmp ch s
  | .llGetMaxCmp => Sys2Proof.Machine.execLlGetMaxCmp s
  | .llIsTimEn => Sys2Proof.Machine.execLlIsTimEn s
  | .llSetTimEn b => Sys2Proof.Machine.execLlSetTimEn b s
  | .llSetCam mode => Sys2Proof.Machine.execLlSetCam mode s
  | .llGetCam => Sys2Proof.Machine.execLlGetCam s
  -- group 2, complementary capability
  | .llSetDtCkd v => Sys2Proof.Machine.execLlSetDtCkd v s
  | .llSetDtVal v => Sys2Proof.Machine.execLlSetDtVal v s
  | .llEnableNch ch b => Sys2Proof.Machine.execLlEnableNch ch b s

end Sys2Proof.Machine
end

