-- ==== Sys2Proof/Machine/Cycle.lean ====
section
/-! DEFINITION. The command cycle on an accepted word (30_encoding.md R51), what a step does with the host's next
event, and how a word is presented. Machine/Step.lean only calls these. -/

namespace Sys2Proof.Machine

/-- R51 on an accepted word: step 1 (halted, R104), step 2 (decode, R49), then the command (`exec`). -/
def commandCycle (word : CmdWord) (s : State) : Host.Outcome State Fault Refusal :=
  if s.fault then .next (answerHalted s)
  else
    match decode word with
    | .error _ => .next (raiseFault word .illegalCmd s)
    | .ok i => exec i s

/-- One step on the host's next event. With none, the engine is idle and holds all state (60_exceptions.md R111; log
entry 4). No other agent has a move (20_memory.md R40; log entry 14). -/
def engineStep (s : State) : Host.Outcome State Fault Refusal :=
  match s.input with
  | [] => .next (s.take [])
  | .rst :: rest => .next (systemReset (s.take rest))
  | .cmd word :: rest => commandCycle word (s.take rest)

/-- The state with a word placed as the one the host presents next. -/
def State.present (s : State) (word : CmdWord) : State := { s with input := .cmd word :: s.input }

end Sys2Proof.Machine
end

