-- ==== Sys2Proof/Machine/Step.lean ====
section
/-! DEFINITION. One step of the machine: one whole command, one reset pulse, or an idle moment (70_reset_and_hazards.md
R121; log entry 16). -/

namespace Sys2Proof.Machine

/-- One step. Illegal straps are refused (20_memory.md R31, U11; log entry 2). -/
def step (s : State) : Host.Outcome State Fault Refusal :=
  if s.straps.legal then engineStep s else .refused .illegalStraps

/-- The state with a table row's word placed as the command word the host presents next: where `step` takes its next
command from (log entries 3 and 15). -/
def State.withFetchWord (s : State) (nbits w : Nat) : State := s.present (tableWord nbits w)

end Sys2Proof.Machine
end

