-- ==== Sys2Proof/Machine/Assembler.lean ====
section
/-! DEFINITION. The assembler syntax of 30_encoding.md R52 and its one pseudo-command (R53), on lists of characters.
One command per line; `;` starts a comment. -/

namespace Sys2Proof.Machine

/-- Blanks between the words of a line. -/
def asmBlank (c : Char) : Bool := c == ' ' || c == '\t' || c == '\r'

/-- A list of characters without the blanks at its two ends. -/
def asmTrim (l : List Char) : List Char :=
  ((l.dropWhile asmBlank).reverse.dropWhile asmBlank).reverse

/-- The pieces between the separators, at least one. -/
def asmSplit (sep : Char) : List Char → List (List Char)
  | [] => [[]]
  | c :: rest =>
    if c = sep then [] :: asmSplit sep rest
    else
      match asmSplit sep rest with
      | [] => [[c]]
      | piece :: pieces => (c :: piece) :: pieces

/-- The value of a digit in a base, decimal or hexadecimal. -/
def asmDigit (base : Nat) (c : Char) : Option Nat :=
  let n := c.toNat
  let d :=
    if 48 ≤ n ∧ n ≤ 57 then n - 48
    else if 65 ≤ n ∧ n ≤ 70 then n - 55
    else if 97 ≤ n ∧ n ≤ 102 then n - 87
    else base
  if d < base then some d else none

/-- The number that the digits continue. -/
def asmDigits (base : Nat) : Nat → List Char → Option Nat
  | acc, [] => some acc
  | acc, c :: rest =>
    match asmDigit base c with
    | some d => asmDigits base (acc * base + d) rest
    | none => none

/-- A number in decimal or `0x` hexadecimal (R52). -/
def asmNat (l : List Char) : Option Nat :=
  match l with
  | [] => none
  | ['0', 'x'] => none
  | '0' :: 'x' :: digits => asmDigits 16 0 digits
  | digits => asmDigits 10 0 digits

/-- A number that fits `k` bits; a wider one has no spelling (R43). -/
def asmBits (k : Nat) (l : List Char) : Option (BitVec k) :=
  match asmNat l with
  | some n => if n < 2 ^ k then some (BitVec.ofNat k n) else none
  | none => none

/-- `Ch1` to `Ch4` (R44). -/
def asmChannel (l : List Char) : Option Channel :=
  match l with
  | ['C', 'h', '1'] => some .ch1
  | ['C', 'h', '2'] => some .ch2
  | ['C', 'h', '3'] => some .ch3
  | ['C', 'h', '4'] => some .ch4
  | _ => none

/-- A Boolean: `1` or `0`, also `true`, `false` (R52). -/
def asmBool (l : List Char) : Option Bool :=
  if l = "1".toList ∨ l = "true".toList then some true
  else if l = "0".toList ∨ l = "false".toList then some false
  else none

/-- An alignment mode by its name of R45. -/
def asmCam (l : List Char) : Option Cam :=
  if l = "EDGE".toList then some .edge
  else if l = "CENTER1".toList then some .center1
  else if l = "CENTER2".toList then some .center2
  else if l = "CENTER3".toList then some .center3
  else none

/-- An output-compare mode by its name of R46. -/
def asmOcm (l : List Char) : Option Ocm :=
  if l = "FROZEN".toList then some .frozen
  else if l = "ACTIVE_ON_MATCH".toList then some .activeOnMatch
  else if l = "INACTIVE_ON_MATCH".toList then some .inactiveOnMatch
  else if l = "TOGGLE".toList then some .toggle
  else if l = "FORCE_INACTIVE".toList then some .forceInactive
  else if l = "FORCE_ACTIVE".toList then some .forceActive
  else if l = "PWM1".toList then some .pwm1
  else if l = "PWM2".toList then some .pwm2
  else none

/-- The pseudo-command `INIT f`, the mode omitted: `INIT f, EDGE` (R53). -/
def asmInitDefault (f : Word) : Instr := .init f .edge

/-- A command from its mnemonic and its operands, in the operand lists of R52. -/
def asmCommand (m : List Char) (ops : List (List Char)) : Option Instr :=
  match ops with
  | [] =>
    if m = "DROP".toList then some .drop
    else if m = "GET_FREQ".toList then some .getFreq
    else if m = "GET_MAX_DUTY".toList then some .getMaxDuty
    else if m = "GET_CAM".toList then some .getCam
    else if m = "LL_GET_MAX_CMP".toList then some .llGetMaxCmp
    else if m = "LL_IS_TIM_EN".toList then some .llIsTimEn
    else if m = "LL_GET_CAM".toList then some .llGetCam
    else none
  | [a] =>
    if m = "INIT".toList then (asmBits 32 a).map asmInitDefault
    else if m = "ENABLE".toList then (asmChannel a).map .enable
    else if m = "DISABLE".toList then (asmChannel a).map .disable
    else if m = "SET_FREQ".toList then (asmBits 32 a).map .setFreq
    else if m = "GET_DUTY".toList then (asmChannel a).map .getDuty
    else if m = "SET_CAM".toList then (asmCam a).map .setCam
    else if m = "LL_ENABLE_OUTPUTS".toList then (asmBool a).map .llEnableOutputs
    else if m = "LL_GET_CMP".toList then (asmChannel a).map .llGetCmp
    else if m = "LL_SET_TIM_EN".toList then (asmBool a).map .llSetTimEn
    else if m = "LL_SET_CAM".toList then (asmCam a).map .llSetCam
    else if m = "LL_SET_DT_CKD".toList then (asmBits 2 a).map .llSetDtCkd
    else if m = "LL_SET_DT_VAL".toList then (asmBits 8 a).map .llSetDtVal
    else none
  | [a, b] =>
    if m = "INIT".toList then (asmBits 32 a).bind fun f => (asmCam b).map fun c => .init f c
    else
      match asmChannel a with
      | none => none
      | some ch =>
        if m = "SET_DUTY".toList then (asmBits 32 b).map (.setDuty ch)
        else if m = "SET_OCM".toList then (asmOcm b).map (.setOcm ch)
        else if m = "LL_SET_OCM".toList then (asmOcm b).map (.llSetOcm ch)
        else if m = "LL_ENABLE_CH".toList then (asmBool b).map (.llEnableCh ch)
        else if m = "LL_SET_CMP".toList then (asmBits 32 b).map (.llSetCmp ch)
        else if m = "LL_ENABLE_NCH".toList then (asmBool b).map (.llEnableNch ch)
        else none
  | _ => none

/-- The text of a line before its comment, without blanks at the ends. -/
def asmCode (line : List Char) : List Char := asmTrim (line.takeWhile (· ≠ ';'))

/-- One line of the assembler syntax (R52). -/
def assembleLine (line : List Char) : Option Instr :=
  let code := asmCode line
  let operands := asmTrim (code.dropWhile fun c => !asmBlank c)
  asmCommand (code.takeWhile fun c => !asmBlank c)
    (if operands = [] then [] else (asmSplit ',' operands).map asmTrim)

/-- The command words of a text, one command per line; lines with no command are skipped (R52). -/
def assembleLines : List (List Char) → Option (List CmdWord)
  | [] => some []
  | line :: rest =>
    if asmCode line = [] then assembleLines rest
    else
      match assembleLine line, assembleLines rest with
      | some i, some words => some (encode i :: words)
      | _, _ => none

/-- The command words of a text (R52). -/
def assemble (text : List Char) : Option (List CmdWord) := assembleLines (asmSplit '\n' text)

end Sys2Proof.Machine
end

