-- ==== Sys2Proof/Machine/Pins.lean ====
section
/-! DEFINITION. The engine's pins of 20_memory.md R31 as they stand between two steps, read off the state. -/

namespace Sys2Proof.Machine

/-- `rst`: asserted in the next step. -/
def pinRst (s : State) : Bool :=
  match s.input with
  | .rst :: _ => true
  | _ => false

/-- `cmd_valid` and `cmd_word`: the word the host presents, if it presents one. -/
def pinCmdWord (s : State) : Option CmdWord :=
  match s.input with
  | .cmd word :: _ => some word
  | _ => none

/-- `cmd_ready`: between two steps the engine has answered and accepts again (R31), but not during reset
(70_reset_and_hazards.md R112). -/
def pinCmdReady (s : State) : Bool := !pinRst s

/-- `rsp_valid`. -/
def pinRspValid (s : State) : Bool := s.rsp.isSome

/-- `rsp_status`, while a response is presented (30_encoding.md R50). -/
def pinRspStatus (s : State) : Option (BitVec 2) := s.rsp.map fun r => r.status.code

/-- `rsp_data`, while a response is presented (30_encoding.md R50). -/
def pinRspData (s : State) : Option Word := s.rsp.map fun r => r.data

/-- `fault`: the state bit `FAULT`, level. -/
def pinFault (s : State) : Bool := s.fault

/-- `clk_en`: the state bit `CLK_EN`, level. -/
def pinClkEn (s : State) : Bool := s.clkEn

end Sys2Proof.Machine
end

