-- ==== Sys2Proof/Safety.lean ====
section
/-! DEFINITION. The terms statements are made in: good runs, the lifecycle conditions, the invariant of every step,
and what a trace of the register port means. -/

namespace Sys2Proof.Safety

open Sys2Proof.Machine

/-- The next state of an outcome, if it has one. -/
def nextState (o : Host.Outcome State Fault Refusal) : Option State :=
  match o with
  | .next s => some s
  | .fault _ => none
  | .refused _ => none

/-- `n` steps of the machine, stopping at a refusal. -/
def run (n : Nat) (s : State) : Host.Outcome State Fault Refusal := Host.Core.run Sys2Proof.core n s

/-- No fault was raised: a halted state is never a good final state (60_exceptions.md R104). -/
def unhalted (s : State) : Prop := s.fault = false

/-- The lifecycle conditions of 60_exceptions.md R108. -/
inductive Condition where
  | cold
  | owned
  | released
  | halted
deriving DecidableEq, Repr

/-- The condition a state is in, by the table of R108; `none` for the combination `CLK_EN = 0`, `LIFE = OWNED`, which
R108 calls unreachable. -/
def condition (s : State) : Option Condition :=
  if s.fault then some .halted
  else
    match s.clkEn, s.life with
    | false, .unowned => some .cold
    | true, .owned => some .owned
    | true, .unowned => some .released
    | false, .owned => none

/-- What every step keeps, and reset has. -/
structure Inv (s : State) : Prop where
  /-- `LIFE = OWNED` implies `CLK_EN = 1` (43_driver_commands.md R81). -/
  owned_clocked : s.life = .owned → s.clkEn = true
  /-- `FAULT = 0` means `FCODE = 0` and `FWORD = 0` (10_state.md R15). -/
  latch_clear : s.fault = false → s.fcode = 0#4 ∧ s.fword = 0#40
  /-- A latched code is one of 1 to 7 (60_exceptions.md R95). -/
  latch_code : s.fault = true → 1 ≤ s.fcode.toNat ∧ s.fcode.toNat ≤ 7
  /-- `ARR` fits `W` bits (10_state.md R18). -/
  arr_fits : s.tim.arr.toNat ≤ maxp s.straps.tier
  /-- Each `CCR[i]` fits `W` bits (10_state.md R19). -/
  ccr_fits : ∀ ch, (s.tim.ccr.get ch).toNat ≤ maxp s.straps.tier
  /-- The fields a GP tier lacks hold 0 there (10_state.md R25). -/
  absent_zero : s.straps.tier ≠ .adv →
    s.tim.moe = false ∧ s.tim.ccne = PerChannel.const false ∧ s.tim.dtg = 0#8 ∧ s.tim.ckd = 0#2
  /-- While `CLK_EN = 0` no field has been written since reset (60_exceptions.md R98). -/
  unclocked_reset : s.clkEn = false → s.tim = Timer.atReset s.straps.tier

/-- What one operation of the register port does to the timer block (20_memory.md R33, R113). -/
def applyOp (t : Tier) (tim : Timer) : RegOp → Timer
  | .rd _ _ => tim
  | .wr f v => tim.write f v
  | .periphReset => Timer.atReset t

/-- A sequence of register-port operations, the oldest first. -/
def applyOps (t : Tier) (tim : Timer) (ops : List RegOp) : Timer := ops.foldl (applyOp t) tim

/-- Every read of a trace delivers the value its field holds at that point (20_memory.md R38 (c)). -/
def readsSeeLatest (t : Tier) : Timer → List RegOp → Prop
  | _, [] => True
  | tim, op :: rest =>
    (∀ f v, op = .rd f v → v = tim.read f) ∧ readsSeeLatest t (applyOp t tim op) rest

/-- No operation of a trace writes `CMS` at a point where `CEN = 1` (70_reset_and_hazards.md R115). -/
def cmsWrittenStopped (t : Tier) : Timer → List RegOp → Prop
  | _, [] => True
  | tim, op :: rest =>
    (∀ v, op = .wr .cms v → tim.cen = false) ∧ cmsWrittenStopped t (applyOp t tim op) rest

/-- Every write of a trace is to a field the tier has, with a value that fits it (20_memory.md R36, 10_state.md R25). -/
def writesFit (t : Tier) (ops : List RegOp) : Prop :=
  ∀ f v, RegOp.wr f v ∈ ops → f.present t = true ∧ v.toNat < 2 ^ f.width t

/-- Two states that agree but for the fields no command reads: `OCM`, `CCE`, `MOE`, `CCNE`, `DTG`, `CKD` (10_state.md
R26). -/
def agreeButWriteOnly (s t : State) : Prop :=
  t = { s with tim := { s.tim with
    ocm := t.tim.ocm, cce := t.tim.cce, moe := t.tim.moe, ccne := t.tim.ccne, dtg := t.tim.dtg, ckd := t.tim.ckd } }

/-- Two states that are equal, or differ in `ARR` alone while no command can show it: the engine is halted, or the timer
has no owner and its clock is off (10_state.md R28). -/
def agreeButUnseenPeriod (s t : State) : Prop :=
  t = s ∨
    (t = { s with tim := { s.tim with arr := t.tim.arr } } ∧
      (s.fault = true ∨ (s.clkEn = false ∧ s.life = .unowned)))

/-- The commands whose `OK` response carries a result (30_encoding.md R50). -/
def reads : Instr → Bool
  | .getFreq => true
  | .getMaxDuty => true
  | .getDuty _ => true
  | .getCam => true
  | .llGetCmp _ => true
  | .llGetMaxCmp => true
  | .llIsTimEn => true
  | .llGetCam => true
  | _ => false

end Sys2Proof.Safety
end

