-- ==== Sys2Proof/WellFormed.lean ====
section
/-! DEFINITION. Well-formedness. The operand types of `Instr` already exclude every reserved bit pattern, so one
check of an instruction is left: the operand width, which 30_encoding.md R47 calls the only check of the encoding
that depends on a parameter. The machine makes the same check at run time (`Machine.operandFault`). -/

namespace Sys2Proof

/-- On a 16-bit tier the compare value of `SET_DUTY` and `LL_SET_CMP` must have `arg[31:16] = 0` (R47 (c)). -/
def Instr.wellFormed (t : Tier) : Instr → Bool
  | .setDuty _ v => decide (t = .gp32) || decide (v.toNat < 65536)
  | .llSetCmp _ v => decide (t = .gp32) || decide (v.toNat < 65536)
  | _ => true

end Sys2Proof
end

