-- ==== Sys2Proof/Certificates/Slice0/Obligations.lean ====
section
/-! DEFINITION. The statements for the provers, one `def Obligations.<Name> : Prop` each. The numbers R<n> are the rules
of spec/. A command's statement gives its whole next state, so what the record does not name is unchanged: its frame.
Conditions on the state: `LIFE = OWNED` for group 0 (R81), `LOWLEVEL_EN = 1` and `CLK_EN = 1` for groups 1 and 2 (R56,
R67). -/

open Sys2Proof Sys2Proof.Machine Sys2Proof.Safety

/-! ## Encoding -/

/-- Decoding a command's word gives the command back, for every command and operand (R42, R43, R48, R52). -/
def Obligations.DecodeOfEncodeReturnsCommand : Prop :=
  ∀ i : Instr, decode (encode i) = .ok i

/-- A word that decodes is the one spelling of its command (R49; D3 "exactly one spelling"). -/
def Obligations.EncodeOfDecodeReturnsWord : Prop :=
  ∀ (w : CmdWord) (i : Instr), decode w = .ok i → encode i = w

/-- A word spells a command exactly when it matches a row of the opcode map, and it matches at most one (R49, R54). -/
def Obligations.WordSpellsCommandIffOneRowMatches : Prop :=
  ∀ w : CmdWord,
    ((∃ i, decode w = .ok i) ↔ ∃ r ∈ opcodeMap, r.hits w = true) ∧
    (∀ r ∈ opcodeMap, ∀ r' ∈ opcodeMap, r.hits w = true → r'.hits w = true → r = r')

/-- Words that the spec writes out decode to the commands it writes beside them (examples of R57 to R92). -/
def Obligations.SpecWordsDecodeAsWritten : Prop :=
  decode 0x04000003E8#40 = .ok (.init 1000#32 .edge) ∧
  decode 0x0800000000#40 = .ok .drop ∧
  decode 0x0C00000000#40 = .ok (.enable .ch1) ∧
  decode 0x1300000000#40 = .ok (.disable .ch4) ∧
  decode 0x14000003E8#40 = .ok (.setFreq 1000#32) ∧
  decode 0x2000003E80#40 = .ok (.setDuty .ch1 16000#32) ∧
  decode 0x2A00000003#40 = .ok (.setOcm .ch3 .toggle) ∧
  decode 0x2C00000001#40 = .ok (.setCam .center1) ∧
  decode 0x4500000007#40 = .ok (.llSetOcm .ch2 .pwm2) ∧
  decode 0x4A00000001#40 = .ok (.llEnableCh .ch3 true) ∧
  decode 0x4CFFFFFFFF#40 = .ok (.llSetCmp .ch1 0xFFFFFFFF#32) ∧
  decode 0x6000000002#40 = .ok (.llSetCam .center2) ∧
  decode 0x8400000040#40 = .ok (.llSetDtVal 64#8) ∧
  decode 0x8800000001#40 = .ok (.llEnableNch .ch1 true)

/-- Lines of the assembler syntax stand for the words the spec writes beside them (R52), and `INIT f` stands for
`INIT f, EDGE`, whatever the operand text, legal or not (R53). -/
def Obligations.AssemblerLinesSpellSpecWords : Prop :=
  assemble "INIT 1000, EDGE ; 1 kHz\nSET_DUTY Ch1, 16000\nLL_SET_CMP Ch1, 0xFFFFFFFF".toList
    = some [0x04000003E8#40, 0x2000003E80#40, 0x4CFFFFFFFF#40] ∧
  assemble "SET_OCM Ch3, TOGGLE\nLL_ENABLE_NCH Ch1, true\nDROP".toList
    = some [0x2A00000003#40, 0x8800000001#40, 0x0800000000#40] ∧
  assembleLine "INIT 1000".toList = assembleLine "INIT 1000, EDGE".toList ∧
  ∀ a : List Char, asmCommand "INIT".toList [a] = asmCommand "INIT".toList [a, "EDGE".toList]

/-! ## The command cycle, faults, reset -/

/-- When the host's next word decodes to a command and the engine is not halted, a step is that command's meaning,
with the word taken off the stream and the output ports cleared (R51). -/
def Obligations.StepRunsDecodedCommand : Prop :=
  ∀ (s : State) (w : CmdWord) (rest : List HostEvent) (i : Instr),
    s.straps.legal = true → s.fault = false → s.input = .cmd w :: rest → decode w = .ok i →
    step s = exec i { s with input := rest, rsp := none, port := [] }

/-- A word that matches no row of the opcode map raises `F_ILLEGAL_CMD` and changes no other state (R49, R96 (a)). -/
def Obligations.IllegalWordRaisesIllegalCommand : Prop :=
  ∀ (s : State) (w : CmdWord) (rest : List HostEvent),
    s.straps.legal = true → s.fault = false → s.input = .cmd w :: rest →
    (∀ r ∈ opcodeMap, r.hits w = false) →
    step s = .next { s with
      input := rest, port := [], rsp := some ⟨.fault, 1#32⟩, fault := true, fcode := 1#4, fword := w }

/-- The model's choice (log entry 4): with nothing presented the engine holds all its state and answers nothing. -/
def Obligations.IdleEngineHoldsState : Prop :=
  ∀ s : State, s.straps.legal = true → s.input = [] → step s = .next { s with rsp := none, port := [] }

/-- System reset gives every piece of state its reset value on every tier, keeps the straps, answers nothing, and
leaves the words the host has still to present (R112). That reset is one event is the model's choice (log entry 5). -/
def Obligations.SystemResetGivesResetValues : Prop :=
  ∀ (s : State) (rest : List HostEvent), s.straps.legal = true → s.input = .rst :: rest →
    step s = .next {
      straps := s.straps, life := .unowned, clkEn := false, fault := false, fcode := 0#4, fword := 0#40,
      tim := {
        cen := false, cms := 0#2, arr := (if s.straps.tier = .gp32 then 0xFFFFFFFF#32 else 0x0000FFFF#32),
        ccr := ⟨0#32, 0#32, 0#32, 0#32⟩, ocm := ⟨0#3, 0#3, 0#3, 0#3⟩, cce := ⟨false, false, false, false⟩,
        moe := false, ccne := ⟨false, false, false, false⟩, dtg := 0#8, ckd := 0#2 },
      input := rest, rsp := none, port := [] }

/-- Fault entry latches `FAULT`, the code and the word, answers `FAULT` with the code, and changes nothing else
(R103). -/
def Obligations.FaultEntryChangesOnlyTheLatch : Prop :=
  ∀ (w : CmdWord) (c : FaultCode) (s : State),
    raiseFault w c s = { s with
      fault := true, fcode := c.code, fword := w, rsp := some ⟨.fault, c.code.setWidth 32⟩ }

/-- Whatever the accepted word, a step that raises a fault latches that very word and one of the codes of R95, and
answers `FAULT` with the code (R15, R50, R103). -/
def Obligations.RaisedFaultLatchesAcceptedWord : Prop :=
  ∀ (s t : State) (w : CmdWord) (rest : List HostEvent),
    s.input = .cmd w :: rest → s.fault = false → step s = .next t → t.fault = true →
    t.fword = w ∧ ∃ c : FaultCode, t.fcode = c.code ∧ t.rsp = some ⟨.fault, c.code.setWidth 32⟩

/-- While `FAULT = 1` every accepted word, legal or not, is answered `HALTED` with the latched code, and no state
changes (R104). -/
def Obligations.HaltedEngineAnswersHalted : Prop :=
  ∀ (s : State) (w : CmdWord) (rest : List HostEvent),
    s.straps.legal = true → s.fault = true → s.input = .cmd w :: rest →
    step s = .next { s with input := rest, port := [], rsp := some ⟨.halted, s.fcode.setWidth 32⟩ }

/-- No number of words moves a halted engine: without a reset, its state after any number of steps is the state it
halted in (R104, R105). -/
def Obligations.HaltedEngineStaysUntilReset : Prop :=
  ∀ (n : Nat) (s t : State), s.fault = true → (∀ e ∈ s.input, e ≠ .rst) → run n s = .next t →
    t = { s with input := s.input.drop n, rsp := t.rsp, port := t.port }

/-- Only system reset ends a fault and clears the clock enable: no word does (R14, R105, R111). -/
def Obligations.OnlySystemResetClearsFaultAndClock : Prop :=
  ∀ s t : State, step s = .next t → (∀ rest, s.input ≠ .rst :: rest) →
    (s.fault = true → t.fault = true) ∧ (s.clkEn = true → t.clkEn = true)

/-- The faults of the checks before a command's own rule (codes 1 to 3) are preceded by no register operation and
change neither the timer block nor the engine's lifecycle (R96, R97, R98). -/
def Obligations.EarlyFaultsTouchNoRegister : Prop :=
  ∀ s t : State, step s = .next t → s.fault = false → t.fault = true → t.fcode.toNat ≤ 3 →
    t.port = [] ∧ t.tim = s.tim ∧ t.life = s.life ∧ t.clkEn = s.clkEn

/-- Group 0: `INIT` faults when the timer is owned, every other command when it is not, and a `SET_DUTY` operand wider
than the tier is illegal (R81, R96 (b), R98). -/
def Obligations.DriverCommandsCheckOwnership : Prop :=
  ∀ (i : Instr) (s : State), i.group = .driver →
    ((∃ f m, i = .init f m) → s.life = .owned → exec i s = .next (raiseFault (encode i) .lifecycle s)) ∧
    ((∀ f m, i ≠ .init f m) → s.life = .unowned → exec i s = .next (raiseFault (encode i) .lifecycle s)) ∧
    (∀ ch v, i = .setDuty ch v → s.life = .owned → s.straps.tier ≠ .gp32 → 65536 ≤ v.toNat →
      exec i s = .next (raiseFault (encode i) .illegalCmd s))

/-- Group 1: unavailable without the low-level opt-in, then a lifecycle fault with the clock off, then the operand
width of `LL_SET_CMP` (R56, R96 (b), R97, R98, R106). -/
def Obligations.BaseCommandsCheckAccess : Prop :=
  ∀ (i : Instr) (s : State), i.group = .base →
    (s.straps.lowlevelEn = false → exec i s = .next (raiseFault (encode i) .unavailable s)) ∧
    (s.straps.lowlevelEn = true → s.clkEn = false → exec i s = .next (raiseFault (encode i) .lifecycle s)) ∧
    (∀ ch v, i = .llSetCmp ch v → s.straps.lowlevelEn = true → s.clkEn = true → s.straps.tier ≠ .gp32 →
      65536 ≤ v.toNat → exec i s = .next (raiseFault (encode i) .illegalCmd s))

/-- Group 2: unavailable without the low-level opt-in or off the `ADV` tier, then a lifecycle fault with the clock off
(R67, R97, R98). -/
def Obligations.ComplementaryCommandsCheckAccess : Prop :=
  ∀ (i : Instr) (s : State), i.group = .complementary →
    (s.straps.lowlevelEn = false → exec i s = .next (raiseFault (encode i) .unavailable s)) ∧
    (s.straps.tier ≠ .adv → exec i s = .next (raiseFault (encode i) .unavailable s)) ∧
    (s.straps.lowlevelEn = true → s.straps.tier = .adv → s.clkEn = false →
      exec i s = .next (raiseFault (encode i) .lifecycle s))

/-- Every command, in every state, completes with exactly one response: `OK`, with data only for the eight reading
commands, or `FAULT` with the latched code (R50, R121). -/
def Obligations.EveryCommandAnswersOnce : Prop :=
  ∀ (i : Instr) (s : State), ∃ t, exec i s = .next t ∧ t.straps = s.straps ∧ t.input = s.input ∧
    ((t.fault = s.fault ∧ t.fcode = s.fcode ∧ t.fword = s.fword ∧
        ∃ d, t.rsp = some ⟨.ok, d⟩ ∧ (reads i = false → d = 0#32)) ∨
      (t.fault = true ∧ t.fword = encode i ∧
        ∃ c : FaultCode, t.fcode = c.code ∧ t.rsp = some ⟨.fault, c.code.setWidth 32⟩))

/-! ## Driver commands (group 0) -/

/-- `INIT f, mode` on an unowned timer: with a frequency the formula can turn into a period, the whole state after it
and its register operations in their order; with one out of range, `F_FREQ_RANGE` at step 4, with steps 1 to 3 done
and steps 5 to 8 not; on an owned timer, `F_LIFECYCLE` (R82). -/
def Obligations.InitConfiguresAndStarts : Prop :=
  ∀ (s : State) (f : Word) (mode : Cam),
    (∀ p, s.life = .unowned → periodFromFreq s.straps f.toNat mode = .ok p →
      exec (.init f mode) s = .next { s with
        clkEn := true, life := .owned, rsp := some ⟨.ok, 0#32⟩,
        tim := {
          cen := true, cms := mode.code, arr := BitVec.ofNat 32 p,
          ccr := ⟨0#32, 0#32, 0#32, 0#32⟩, ocm := ⟨6#3, 6#3, 6#3, 6#3⟩, cce := ⟨false, false, false, false⟩,
          moe := decide (s.straps.tier = .adv), ccne := ⟨false, false, false, false⟩, dtg := 0#8, ckd := 0#2 },
        port := s.port
          ++ [.periphReset, .wr .cms (mode.code.setWidth 32), .wr .arr (BitVec.ofNat 32 p), .wr .cen 1#32]
          ++ (if s.straps.tier = .adv then [.wr .moe 1#32] else [])
          ++ [.wr (.ocm .ch1) 6#32, .wr (.ocm .ch2) 6#32, .wr (.ocm .ch3) 6#32, .wr (.ocm .ch4) 6#32] }) ∧
    (s.life = .unowned → periodFromFreq s.straps f.toNat mode = .error .freqRange →
      exec (.init f mode) s = .next { s with
        clkEn := true, rsp := some ⟨.fault, 5#32⟩, fault := true, fcode := 5#4, fword := encode (.init f mode),
        tim := {
          cen := false, cms := mode.code,
          arr := (if s.straps.tier = .gp32 then 0xFFFFFFFF#32 else 0x0000FFFF#32),
          ccr := ⟨0#32, 0#32, 0#32, 0#32⟩, ocm := ⟨0#3, 0#3, 0#3, 0#3⟩, cce := ⟨false, false, false, false⟩,
          moe := false, ccne := ⟨false, false, false, false⟩, dtg := 0#8, ckd := 0#2 },
        port := s.port ++ [.periphReset, .wr .cms (mode.code.setWidth 32)] }) ∧
    (s.life = .owned → exec (.init f mode) s = .next { s with
      rsp := some ⟨.fault, 3#32⟩, fault := true, fcode := 3#4, fword := encode (.init f mode) }) ∧
    encode (.init f mode) = (0x01#6 ++ mode.code ++ f : CmdWord)

/-- `DROP` writes `LIFE` only and performs no register operation; on an unowned timer it is `F_LIFECYCLE` (R83). -/
def Obligations.DropReleasesOnly : Prop :=
  (∀ s : State, s.life = .owned → exec .drop s = .next { s with life := .unowned, rsp := some ⟨.ok, 0#32⟩ }) ∧
  (∀ s : State, s.life = .unowned → exec .drop s = .next { s with
    rsp := some ⟨.fault, 3#32⟩, fault := true, fcode := 3#4, fword := encode .drop }) ∧
  encode .drop = (0x02#6 ++ 0#2 ++ 0#32 : CmdWord)

/-- `ENABLE ch` sets the channel's output enable and nothing else (R84). -/
def Obligations.EnableSetsChannelBit : Prop :=
  ∀ (s : State) (ch : Channel),
    (s.life = .owned → exec (.enable ch) s = .next { s with
      tim := { s.tim with cce := s.tim.cce.set ch true }, rsp := some ⟨.ok, 0#32⟩,
      port := s.port ++ [.wr (.cce ch) 1#32] }) ∧
    encode (.enable ch) = (0x03#6 ++ ch.code ++ 0#32 : CmdWord)

/-- `DISABLE ch` clears the channel's output enable and nothing else (R85). -/
def Obligations.DisableClearsChannelBit : Prop :=
  ∀ (s : State) (ch : Channel),
    (s.life = .owned → exec (.disable ch) s = .next { s with
      tim := { s.tim with cce := s.tim.cce.set ch false }, rsp := some ⟨.ok, 0#32⟩,
      port := s.port ++ [.wr (.cce ch) 0#32] }) ∧
    encode (.disable ch) = (0x04#6 ++ ch.code ++ 0#32 : CmdWord)

/-- `SET_FREQ f` writes the formula's period under the current mode to `ARR` and nothing else, or raises
`F_FREQ_RANGE` and writes no field (R86). -/
def Obligations.SetFreqWritesPeriod : Prop :=
  ∀ (s : State) (f : Word), s.life = .owned →
    (∀ p, periodFromFreq s.straps f.toNat (Cam.ofCode s.tim.cms) = .ok p →
      exec (.setFreq f) s = .next { s with
        tim := { s.tim with arr := BitVec.ofNat 32 p }, rsp := some ⟨.ok, 0#32⟩,
        port := s.port ++ [.rd .cms (s.tim.cms.setWidth 32), .wr .arr (BitVec.ofNat 32 p)] }) ∧
    (periodFromFreq s.straps f.toNat (Cam.ofCode s.tim.cms) = .error .freqRange →
      exec (.setFreq f) s = .next { s with
        rsp := some ⟨.fault, 5#32⟩, fault := true, fcode := 5#4, fword := encode (.setFreq f),
        port := s.port ++ [.rd .cms (s.tim.cms.setWidth 32)] }) ∧
    encode (.setFreq f) = (0x05#6 ++ 0#2 ++ f : CmdWord)

/-- `GET_FREQ` answers the effective frequency, rounded down to whole hertz, and writes nothing (R87). -/
def Obligations.GetFreqAnswersEffectiveFrequency : Prop :=
  (∀ s : State, s.life = .owned → exec .getFreq s = .next { s with
    rsp := some ⟨.ok, BitVec.ofNat 32
      (s.straps.baseClockHz.toNat / ((s.tim.arr.toNat + 1) * scale (Cam.ofCode s.tim.cms)))⟩,
    port := s.port ++ [.rd .cms (s.tim.cms.setWidth 32), .rd .arr s.tim.arr] }) ∧
  encode .getFreq = (0x06#6 ++ 0#2 ++ 0#32 : CmdWord)

/-- `GET_MAX_DUTY` answers `ARR` and writes nothing (R88). -/
def Obligations.GetMaxDutyAnswersPeriod : Prop :=
  (∀ s : State, s.life = .owned → exec .getMaxDuty s = .next { s with
    rsp := some ⟨.ok, s.tim.arr⟩, port := s.port ++ [.rd .arr s.tim.arr] }) ∧
  encode .getMaxDuty = (0x07#6 ++ 0#2 ++ 0#32 : CmdWord)

/-- `SET_DUTY ch, v`: a value strictly below `ARR` is written to `CCR[ch]` and nothing else changes; a value at or
above it raises `F_DUTY_RANGE` and leaves every field; one wider than a 16-bit tier is illegal (R89, R99). -/
def Obligations.SetDutyIsStrictlyBounded : Prop :=
  ∀ (s : State) (ch : Channel) (v : Word), s.life = .owned →
    ((s.straps.tier = .gp32 ∨ v.toNat < 65536) → v.toNat < s.tim.arr.toNat → exec (.setDuty ch v) s = .next { s with
      tim := { s.tim with ccr := s.tim.ccr.set ch v }, rsp := some ⟨.ok, 0#32⟩,
      port := s.port ++ [.rd .arr s.tim.arr, .wr (.ccr ch) v] }) ∧
    ((s.straps.tier = .gp32 ∨ v.toNat < 65536) → s.tim.arr.toNat ≤ v.toNat → exec (.setDuty ch v) s = .next { s with
      rsp := some ⟨.fault, 4#32⟩, fault := true, fcode := 4#4, fword := encode (.setDuty ch v),
      port := s.port ++ [.rd .arr s.tim.arr] }) ∧
    (s.straps.tier ≠ .gp32 → 65536 ≤ v.toNat → exec (.setDuty ch v) s = .next { s with
      rsp := some ⟨.fault, 1#32⟩, fault := true, fcode := 1#4, fword := encode (.setDuty ch v) }) ∧
    encode (.setDuty ch v) = (0x08#6 ++ ch.code ++ v : CmdWord)

/-- `GET_DUTY ch` answers `CCR[ch]`, also when it is at or above `ARR`, and writes nothing (R90). -/
def Obligations.GetDutyAnswersCompareValue : Prop :=
  ∀ (s : State) (ch : Channel),
    (s.life = .owned → exec (.getDuty ch) s = .next { s with
      rsp := some ⟨.ok, s.tim.ccr.get ch⟩, port := s.port ++ [.rd (.ccr ch) (s.tim.ccr.get ch)] }) ∧
    encode (.getDuty ch) = (0x09#6 ++ ch.code ++ 0#32 : CmdWord)

/-- `SET_OCM ch, ocm` writes the channel's compare mode and nothing else, for all 8 modes (R91). -/
def Obligations.SetOcmWritesCompareMode : Prop :=
  ∀ (s : State) (ch : Channel) (ocm : Ocm),
    (s.life = .owned → exec (.setOcm ch ocm) s = .next { s with
      tim := { s.tim with ocm := s.tim.ocm.set ch ocm.code }, rsp := some ⟨.ok, 0#32⟩,
      port := s.port ++ [.wr (.ocm ch) (ocm.code.setWidth 32)] }) ∧
    encode (.setOcm ch ocm) = (0x0A#6 ++ ch.code ++ ocm.code.setWidth 32 : CmdWord)

/-- `SET_CAM mode`: within one scale factor, stop, write the mode, restart, whatever `CEN` was before, and `ARR` is not
written; across scale factors the period is recomputed from the effective frequency read under the old mode, and if
that is out of range the command faults with the counter stopped, the new mode written and the old period (R92). -/
def Obligations.SetCamRescalesPeriod : Prop :=
  ∀ (s : State) (mode : Cam), s.life = .owned →
    (scale mode = scale (Cam.ofCode s.tim.cms) →
      exec (.setCam mode) s = .next { s with
        tim := { s.tim with cen := true, cms := mode.code }, rsp := some ⟨.ok, 0#32⟩,
        port := s.port ++ [.rd .cms (s.tim.cms.setWidth 32), .rd .arr s.tim.arr, .wr .cen 0#32,
          .wr .cms (mode.code.setWidth 32), .wr .cen 1#32] }) ∧
    (scale mode ≠ scale (Cam.ofCode s.tim.cms) →
      (∀ p, periodFromFreq s.straps
          (s.straps.baseClockHz.toNat / ((s.tim.arr.toNat + 1) * scale (Cam.ofCode s.tim.cms))) mode = .ok p →
        exec (.setCam mode) s = .next { s with
          tim := { s.tim with cen := true, cms := mode.code, arr := BitVec.ofNat 32 p }, rsp := some ⟨.ok, 0#32⟩,
          port := s.port ++ [.rd .cms (s.tim.cms.setWidth 32), .rd .arr s.tim.arr, .wr .cen 0#32,
            .wr .cms (mode.code.setWidth 32), .wr .arr (BitVec.ofNat 32 p), .wr .cen 1#32] }) ∧
      (periodFromFreq s.straps
          (s.straps.baseClockHz.toNat / ((s.tim.arr.toNat + 1) * scale (Cam.ofCode s.tim.cms))) mode
            = .error .freqRange →
        exec (.setCam mode) s = .next { s with
          tim := { s.tim with cen := false, cms := mode.code },
          rsp := some ⟨.fault, 5#32⟩, fault := true, fcode := 5#4, fword := encode (.setCam mode),
          port := s.port ++ [.rd .cms (s.tim.cms.setWidth 32), .rd .arr s.tim.arr, .wr .cen 0#32,
            .wr .cms (mode.code.setWidth 32)] })) ∧
    encode (.setCam mode) = (0x0B#6 ++ 0#2 ++ mode.code.setWidth 32 : CmdWord)

/-- `GET_CAM` answers the alignment mode and writes nothing (R93). -/
def Obligations.GetCamAnswersMode : Prop :=
  (∀ s : State, s.life = .owned → exec .getCam s = .next { s with
    rsp := some ⟨.ok, s.tim.cms.setWidth 32⟩, port := s.port ++ [.rd .cms (s.tim.cms.setWidth 32)] }) ∧
  encode .getCam = (0x0C#6 ++ 0#2 ++ 0#32 : CmdWord)

/-! ## Base capability commands (group 1) -/

/-- `LL_ENABLE_OUTPUTS b` writes `MOE` on `ADV`; on a GP tier it is accepted and changes no field (R57). -/
def Obligations.LlEnableOutputsWritesMoeOnAdv : Prop :=
  ∀ (s : State) (b : Bool), s.straps.lowlevelEn = true → s.clkEn = true →
    (s.straps.tier = .adv → exec (.llEnableOutputs b) s = .next { s with
      tim := { s.tim with moe := b }, rsp := some ⟨.ok, 0#32⟩,
      port := s.port ++ [.wr .moe (if b then 1#32 else 0#32)] }) ∧
    (s.straps.tier ≠ .adv → exec (.llEnableOutputs b) s = .next { s with rsp := some ⟨.ok, 0#32⟩ }) ∧
    encode (.llEnableOutputs b) = (0x10#6 ++ 0#2 ++ (if b then 1#32 else 0#32) : CmdWord)

/-- `LL_SET_OCM ch, ocm` writes the channel's compare mode only (R58). -/
def Obligations.LlSetOcmWritesCompareMode : Prop :=
  ∀ (s : State) (ch : Channel) (ocm : Ocm),
    (s.straps.lowlevelEn = true → s.clkEn = true → exec (.llSetOcm ch ocm) s = .next { s with
      tim := { s.tim with ocm := s.tim.ocm.set ch ocm.code }, rsp := some ⟨.ok, 0#32⟩,
      port := s.port ++ [.wr (.ocm ch) (ocm.code.setWidth 32)] }) ∧
    encode (.llSetOcm ch ocm) = (0x11#6 ++ ch.code ++ ocm.code.setWidth 32 : CmdWord)

/-- `LL_ENABLE_CH ch, b` writes the channel's output enable only (R59). -/
def Obligations.LlEnableChWritesChannelBit : Prop :=
  ∀ (s : State) (ch : Channel) (b : Bool),
    (s.straps.lowlevelEn = true → s.clkEn = true → exec (.llEnableCh ch b) s = .next { s with
      tim := { s.tim with cce := s.tim.cce.set ch b }, rsp := some ⟨.ok, 0#32⟩,
      port := s.port ++ [.wr (.cce ch) (if b then 1#32 else 0#32)] }) ∧
    encode (.llEnableCh ch b) = (0x12#6 ++ ch.code ++ (if b then 1#32 else 0#32) : CmdWord)

/-- `LL_SET_CMP ch, v` writes `CCR[ch]` only, with no range check against `ARR`, for every value that fits the
tier; a wider one is illegal (R60). -/
def Obligations.LlSetCmpWritesUnchecked : Prop :=
  ∀ (s : State) (ch : Channel) (v : Word), s.straps.lowlevelEn = true → s.clkEn = true →
    ((s.straps.tier = .gp32 ∨ v.toNat < 65536) → exec (.llSetCmp ch v) s = .next { s with
      tim := { s.tim with ccr := s.tim.ccr.set ch v }, rsp := some ⟨.ok, 0#32⟩,
      port := s.port ++ [.wr (.ccr ch) v] }) ∧
    (s.straps.tier ≠ .gp32 → 65536 ≤ v.toNat → exec (.llSetCmp ch v) s = .next { s with
      rsp := some ⟨.fault, 1#32⟩, fault := true, fcode := 1#4, fword := encode (.llSetCmp ch v) }) ∧
    encode (.llSetCmp ch v) = (0x13#6 ++ ch.code ++ v : CmdWord)

/-- `LL_GET_CMP ch` answers `CCR[ch]` and writes nothing (R61). -/
def Obligations.LlGetCmpAnswersCompareValue : Prop :=
  ∀ (s : State) (ch : Channel),
    (s.straps.lowlevelEn = true → s.clkEn = true → exec (.llGetCmp ch) s = .next { s with
      rsp := some ⟨.ok, s.tim.ccr.get ch⟩, port := s.port ++ [.rd (.ccr ch) (s.tim.ccr.get ch)] }) ∧
    encode (.llGetCmp ch) = (0x14#6 ++ ch.code ++ 0#32 : CmdWord)

/-- `LL_GET_MAX_CMP` answers `ARR` and writes nothing (R62). -/
def Obligations.LlGetMaxCmpAnswersPeriod : Prop :=
  (∀ s : State, s.straps.lowlevelEn = true → s.clkEn = true → exec .llGetMaxCmp s = .next { s with
    rsp := some ⟨.ok, s.tim.arr⟩, port := s.port ++ [.rd .arr s.tim.arr] }) ∧
  encode .llGetMaxCmp = (0x15#6 ++ 0#2 ++ 0#32 : CmdWord)

/-- `LL_IS_TIM_EN` answers `CEN` and writes nothing (R63). -/
def Obligations.LlIsTimEnAnswersRunBit : Prop :=
  (∀ s : State, s.straps.lowlevelEn = true → s.clkEn = true → exec .llIsTimEn s = .next { s with
    rsp := some ⟨.ok, if s.tim.cen then 1#32 else 0#32⟩,
    port := s.port ++ [.rd .cen (if s.tim.cen then 1#32 else 0#32)] }) ∧
  encode .llIsTimEn = (0x16#6 ++ 0#2 ++ 0#32 : CmdWord)

/-- `LL_SET_TIM_EN b` writes `CEN` only (R64). -/
def Obligations.LlSetTimEnWritesRunBit : Prop :=
  ∀ (s : State) (b : Bool),
    (s.straps.lowlevelEn = true → s.clkEn = true → exec (.llSetTimEn b) s = .next { s with
      tim := { s.tim with cen := b }, rsp := some ⟨.ok, 0#32⟩,
      port := s.port ++ [.wr .cen (if b then 1#32 else 0#32)] }) ∧
    encode (.llSetTimEn b) = (0x17#6 ++ 0#2 ++ (if b then 1#32 else 0#32) : CmdWord)

/-- `LL_SET_CAM mode` writes `CMS` only, without rescaling, when the counter is stopped, and raises
`F_CAM_WHILE_RUNNING` without a write when it runs, also for the mode already held (R65, R102). -/
def Obligations.LlSetCamRefusesRunningCounter : Prop :=
  ∀ (s : State) (mode : Cam), s.straps.lowlevelEn = true → s.clkEn = true →
    (s.tim.cen = false → exec (.llSetCam mode) s = .next { s with
      tim := { s.tim with cms := mode.code }, rsp := some ⟨.ok, 0#32⟩,
      port := s.port ++ [.rd .cen 0#32, .wr .cms (mode.code.setWidth 32)] }) ∧
    (s.tim.cen = true → exec (.llSetCam mode) s = .next { s with
      rsp := some ⟨.fault, 7#32⟩, fault := true, fcode := 7#4, fword := encode (.llSetCam mode),
      port := s.port ++ [.rd .cen 1#32] }) ∧
    encode (.llSetCam mode) = (0x18#6 ++ 0#2 ++ mode.code.setWidth 32 : CmdWord)

/-- `LL_GET_CAM` answers the alignment mode and writes nothing (R66). -/
def Obligations.LlGetCamAnswersMode : Prop :=
  (∀ s : State, s.straps.lowlevelEn = true → s.clkEn = true → exec .llGetCam s = .next { s with
    rsp := some ⟨.ok, s.tim.cms.setWidth 32⟩, port := s.port ++ [.rd .cms (s.tim.cms.setWidth 32)] }) ∧
  encode .llGetCam = (0x19#6 ++ 0#2 ++ 0#32 : CmdWord)

/-! ## Complementary capability commands (group 2) -/

/-- `LL_SET_DT_CKD v` and `LL_SET_DT_VAL v` store every value as it is in `CKD` and `DTG` only (R68, R69). -/
def Obligations.DeadTimeCommandsStoreValues : Prop :=
  ∀ s : State, s.straps.lowlevelEn = true → s.straps.tier = .adv → s.clkEn = true →
    (∀ v : BitVec 2, exec (.llSetDtCkd v) s = .next { s with
      tim := { s.tim with ckd := v }, rsp := some ⟨.ok, 0#32⟩, port := s.port ++ [.wr .ckd (v.setWidth 32)] } ∧
      encode (.llSetDtCkd v) = (0x20#6 ++ 0#2 ++ v.setWidth 32 : CmdWord)) ∧
    (∀ v : BitVec 8, exec (.llSetDtVal v) s = .next { s with
      tim := { s.tim with dtg := v }, rsp := some ⟨.ok, 0#32⟩, port := s.port ++ [.wr .dtg (v.setWidth 32)] } ∧
      encode (.llSetDtVal v) = (0x21#6 ++ 0#2 ++ v.setWidth 32 : CmdWord))

/-- `LL_ENABLE_NCH ch, b` writes the channel's complementary enable only, on all four channels (R70). -/
def Obligations.LlEnableNchWritesComplementaryBit : Prop :=
  ∀ (s : State) (ch : Channel) (b : Bool),
    (s.straps.lowlevelEn = true → s.straps.tier = .adv → s.clkEn = true →
      exec (.llEnableNch ch b) s = .next { s with
        tim := { s.tim with ccne := s.tim.ccne.set ch b }, rsp := some ⟨.ok, 0#32⟩,
        port := s.port ++ [.wr (.ccne ch) (if b then 1#32 else 0#32)] }) ∧
    encode (.llEnableNch ch b) = (0x22#6 ++ ch.code ++ (if b then 1#32 else 0#32) : CmdWord)

/-! ## The frequency arithmetic -/

/-- The scale factor is 1 for the edge-aligned mode and 2 for each center-aligned one (R73). -/
def Obligations.ScaleIsOneOrTwo : Prop :=
  scale .edge = 1 ∧ scale .center1 = 2 ∧ scale .center2 = 2 ∧ scale .center3 = 2

/-- The period of a frequency, with its three fault arms; on a 32-bit tier the third is dead, because
`q <= BASE_CLOCK_HZ <= 2^32 - 1` and so `q - 1 <= MAXP - 1` (R75). -/
def Obligations.PeriodFromFreqFollowsFormula : Prop :=
  ∀ (p : Straps) (f : Nat) (m : Cam),
    (f = 0 → periodFromFreq p f m = .error .freqRange) ∧
    (0 < f → p.baseClockHz.toNat / (f * scale m) = 0 → periodFromFreq p f m = .error .freqRange) ∧
    (0 < f → maxp p.tier < p.baseClockHz.toNat / (f * scale m) - 1 → periodFromFreq p f m = .error .freqRange) ∧
    (0 < f → p.baseClockHz.toNat / (f * scale m) ≠ 0 → p.baseClockHz.toNat / (f * scale m) - 1 ≤ maxp p.tier →
      periodFromFreq p f m = .ok (p.baseClockHz.toNat / (f * scale m) - 1)) ∧
    (p.tier = .gp32 →
      p.baseClockHz.toNat / (f * scale m) ≤ p.baseClockHz.toNat ∧ p.baseClockHz.toNat ≤ 2 ^ 32 - 1 ∧
      p.baseClockHz.toNat / (f * scale m) - 1 ≤ maxp p.tier - 1)

/-- The frequency of a period: the formula, at most the base clock, and 0 exactly when the divisor exceeds the base
clock; for a period the register can hold, the divisor is 1 to 2^33, and 0 needs the 32-bit tier or a base clock below
131072 Hz (R76). -/
def Obligations.FreqFromPeriodFollowsFormula : Prop :=
  ∀ (p : Straps) (P : Nat) (m : Cam),
    freqFromPeriod p P m = p.baseClockHz.toNat / ((P + 1) * scale m) ∧
    freqFromPeriod p P m ≤ p.baseClockHz.toNat ∧
    (freqFromPeriod p P m = 0 ↔ p.baseClockHz.toNat < (P + 1) * scale m) ∧
    (P ≤ maxp p.tier → 1 ≤ (P + 1) * scale m ∧ (P + 1) * scale m ≤ 2 ^ 33 ∧
      (freqFromPeriod p P m = 0 → p.tier = .gp32 ∨ p.baseClockHz.toNat < 131072))

/-- The tolerance of `SET_FREQ`: the requested frequency lies between the frequencies of `q` and `q + 1` counts, and
the effective frequency is never below it; at 32 MHz a request of 5 MHz gives 5333333 Hz (R78). -/
def Obligations.SetFreqToleranceIsOneCount : Prop :=
  (∀ (p : Straps) (f P : Nat) (m : Cam), periodFromFreq p f m = .ok P →
    (P + 1 : ℚ) ≤ (p.baseClockHz.toNat : ℚ) / (f * scale m) ∧
    (p.baseClockHz.toNat : ℚ) / (f * scale m) < P + 1 + 1 ∧
    (p.baseClockHz.toNat : ℚ) / ((P + 1 + 1) * scale m) < f ∧
    (f : ℚ) ≤ (p.baseClockHz.toNat : ℚ) / ((P + 1) * scale m) ∧
    f ≤ freqFromPeriod p P m) ∧
  (∀ p : Straps, p.baseClockHz = 32000000#32 →
    periodFromFreq p 5000000 .edge = .ok 5 ∧ freqFromPeriod p 5 .edge = 5333333)

/-- What the rescaling of `SET_CAM` guarantees: with `n0 = (P0+1)*s0` and `n1 = (P1+1)*s1`,
`-s1 < n1 - n0 < C/(f0*(f0+1))`; within 2 counts when `f0*(f0+1) ≥ C`; equal when `n0` divides `C` and `s1` divides
`n0`; the effective frequency never below the old one (R79). -/
def Obligations.RescalingKeepsFrequencyWithinRounding : Prop :=
  ∀ (p : Straps) (P0 P1 : Nat) (m0 m1 : Cam) (C f0 n0 n1 : ℚ),
    C = p.baseClockHz.toNat → f0 = freqFromPeriod p P0 m0 →
    n0 = (P0 + 1) * scale m0 → n1 = (P1 + 1) * scale m1 →
    periodFromFreq p (freqFromPeriod p P0 m0) m1 = .ok P1 →
    -(scale m1 : ℚ) < n1 - n0 ∧
    n1 - n0 < C / (f0 * (f0 + 1)) ∧
    (C ≤ f0 * (f0 + 1) → -2 < n1 - n0 ∧ n1 - n0 < 2) ∧
    ((P0 + 1) * scale m0 ∣ p.baseClockHz.toNat → scale m1 ∣ (P0 + 1) * scale m0 → n1 = n0) ∧
    freqFromPeriod p P0 m0 ≤ freqFromPeriod p P1 m1

/-! ## Whole-machine statements -/

/-- Every state after reset, on every straps, satisfies the invariant, and so does `State.reset`. -/
def Obligations.ResetSatisfiesInvariant : Prop :=
  (∀ p : Straps, Inv (State.afterReset p)) ∧ Inv State.reset

/-- Every step keeps the invariant: ownership implies the clock, a clear latch is zero and a latched code is legal,
periods and compare values fit the tier, absent fields stay 0, nothing is written before the clock is on. -/
def Obligations.EveryStepKeepsInvariant : Prop :=
  ∀ s t : State, Inv s → step s = .next t → Inv t

/-- The engine never writes the alignment mode while the counter runs, in any step of any state (R115). -/
def Obligations.AlignmentModeWrittenOnlyWhileStopped : Prop :=
  ∀ s t : State, step s = .next t → cmsWrittenStopped s.straps.tier s.tim t.port

/-- No timer field changes by itself: but for system reset, the block after a step is the block before it with the
step's register-port operations applied in order, and each read of them delivers the latest write (R33, R38). -/
def Obligations.TimerChangesOnlyThroughRegisterPort : Prop :=
  ∀ s t : State, step s = .next t → (∀ rest, s.input ≠ .rst :: rest) →
    t.tim = applyOps s.straps.tier s.tim t.port ∧ readsSeeLatest s.straps.tier s.tim t.port

/-- Every register write of every step is to a field the tier has, and its value fits the field: no write truncates
(R25, R36). -/
def Obligations.RegisterWritesFitPresentFields : Prop :=
  ∀ s t : State, step s = .next t → writesFit s.straps.tier t.port

/-- A field holds what was written to it, and a write to one field changes no other (R33). -/
def Obligations.FieldReadsAfterWrites : Prop :=
  ∀ (tier : Tier) (tim : Timer) (f : Field) (v : Word), v.toNat < 2 ^ f.width tier →
    (tim.write f v).read f = v ∧ ∀ g : Field, g ≠ f → (tim.write f v).read g = tim.read g

/-- No response, now or after any number of further events, depends on `OCM`, `CCE`, `MOE`, `CCNE`, `DTG` or `CKD`
(R26). -/
def Obligations.WriteOnlyFieldsNeverObserved : Prop :=
  ∀ (n : Nat) (s s2 t : State), agreeButWriteOnly s s2 → run n s = .next t →
    ∃ t2, run n s2 = .next t2 ∧ agreeButWriteOnly t t2 ∧ t2.rsp = t.rsp

/-- The reset value of `ARR` cannot be seen (R28). Two states that are equal, or differ in `ARR` alone while the engine
is halted or has neither owner nor clock, step to states so related, with equal responses; two reset states with any two
values of `ARR` are so related; so the responses to every stream of events from reset are the same. -/
def Obligations.ResetPeriodNeverObserved : Prop :=
  (∀ s s2 t : State, agreeButUnseenPeriod s s2 → step s = .next t →
    ∃ t2, step s2 = .next t2 ∧ agreeButUnseenPeriod t t2 ∧ t2.rsp = t.rsp) ∧
  (∀ (p : Straps) (a b : Word) (events : List HostEvent),
    agreeButUnseenPeriod
      { State.afterReset p with input := events, tim := { (State.afterReset p).tim with arr := a } }
      { State.afterReset p with input := events, tim := { (State.afterReset p).tim with arr := b } }) ∧
  ∀ (p : Straps) (a : Word) (events : List HostEvent) (n : Nat) (t : State),
    run n { State.afterReset p with input := events } = .next t →
    ∃ t2, run n { State.afterReset p with
        input := events, tim := { (State.afterReset p).tim with arr := a } } = .next t2 ∧ t2.rsp = t.rsp

/-- The lifecycle conditions follow the table of R108: what a word can do to a cold, owned, released or halted
engine. -/
def Obligations.LifecycleConditionsFollowTable : Prop :=
  ∀ (s t : State) (w : CmdWord) (rest : List HostEvent), s.input = .cmd w :: rest → step s = .next t →
    (condition s = some .cold →
      (condition t = some .owned ∧ ∃ f m, decode w = .ok (.init f m)) ∨ condition t = some .halted) ∧
    (condition s = some .owned →
      condition t = some .owned ∨ (condition t = some .released ∧ decode w = .ok .drop) ∨
        condition t = some .halted) ∧
    (condition s = some .released →
      condition t = some .released ∨ (condition t = some .owned ∧ ∃ f m, decode w = .ok (.init f m)) ∨
        condition t = some .halted) ∧
    (condition s = some .halted → condition t = some .halted)

/-- An accepted duty value reads back, at the driver and at the low level: for every channel and every value below the
resolution, `SET_DUTY` then `GET_DUTY`, or `LL_GET_CMP` where the low level is enabled, answers the value (R61, R89,
R90). -/
def Obligations.DutyValueReadsBack : Prop :=
  ∀ (s : State) (ch : Channel) (d : Word) (reader : Instr),
    s.straps.legal = true → s.fault = false → s.life = .owned → (s.straps.tier = .gp32 ∨ d.toNat < 65536) →
    d.toNat < s.tim.arr.toNat →
    (reader = .getDuty ch ∨ (reader = .llGetCmp ch ∧ s.straps.lowlevelEn = true ∧ s.clkEn = true)) →
    s.input = [.cmd (encode (.setDuty ch d)), .cmd (encode reader)] →
    ∃ t, run 2 s = .next t ∧ t.rsp = some ⟨.ok, d⟩ ∧ t.fault = false

/-- An alignment mode that was set reads back, at the driver and at the low level, for all four variants (R66, R93). -/
def Obligations.AlignmentModeReadsBack : Prop :=
  ∀ (s t : State) (m : Cam), s.fault = false → t.fault = false →
    (exec (.setCam m) s = .next t ∨ exec (.llSetCam m) s = .next t) →
    (t.life = .owned → ∃ u, exec .getCam t = .next u ∧ u.rsp = some ⟨.ok, m.code.setWidth 32⟩) ∧
    (t.straps.lowlevelEn = true → t.clkEn = true →
      ∃ u, exec .llGetCam t = .next u ∧ u.rsp = some ⟨.ok, m.code.setWidth 32⟩)
end

