-- ==== Sys2Proof/Laws/Encoding.lean ====
section
/-! SUPPORT. The fields of a built command word, the operand codes and their readings, and the operand-width check
against `Instr.wellFormed`. -/

namespace Sys2Proof

/-- The bits of a built word: `arg` lowest, then `ch`, then `op` (R42). -/
theorem cmdWord_bit (op : BitVec 6) (ch : BitVec 2) (arg : Word) (i : Nat) :
    (cmdWord op ch arg).getLsbD i =
      if i < 32 then arg.getLsbD i else if i - 32 < 2 then ch.getLsbD (i - 32) else op.getLsbD (i - 32 - 2) := by
  change BitVec.getLsbD (w := 6 + 2 + 32) (op ++ ch ++ arg) i = _
  rw [BitVec.getLsbD_append, BitVec.getLsbD_append]

@[simp] theorem opField_cmdWord (op : BitVec 6) (ch : BitVec 2) (arg : Word) : opField (cmdWord op ch arg) = op := by
  apply BitVec.eq_of_getLsbD_eq
  intro i hi
  have h1 : ¬ 34 + i < 32 := by omega
  have h2 : ¬ 34 + i - 32 < 2 := by omega
  have h3 : 34 + i - 32 - 2 = i := by omega
  simp only [opField, BitVec.getLsbD_extractLsb', hi, decide_true, Bool.true_and, cmdWord_bit, h1, h2, h3, if_false]

@[simp] theorem chField_cmdWord (op : BitVec 6) (ch : BitVec 2) (arg : Word) : chField (cmdWord op ch arg) = ch := by
  apply BitVec.eq_of_getLsbD_eq
  intro i hi
  have h1 : ¬ 32 + i < 32 := by omega
  have h2 : 32 + i - 32 = i := by omega
  simp only [chField, BitVec.getLsbD_extractLsb', hi, decide_true, Bool.true_and, cmdWord_bit, h1, h2, if_false,
    if_true]

@[simp] theorem argField_cmdWord (op : BitVec 6) (ch : BitVec 2) (arg : Word) :
    argField (cmdWord op ch arg) = arg := by
  apply BitVec.eq_of_getLsbD_eq
  intro i hi
  simp only [argField, BitVec.getLsbD_extractLsb', hi, decide_true, Bool.true_and, cmdWord_bit, Nat.zero_add, if_true]

/-- A word is its three fields (R42). -/
theorem cmdWord_fields (w : CmdWord) : cmdWord (opField w) (chField w) (argField w) = w := by
  apply BitVec.eq_of_getLsbD_eq
  intro i hi
  rw [cmdWord_bit]
  by_cases h : i < 32
  · simp [argField, h]
  · by_cases h2 : i - 32 < 2
    · have e : 32 + (i - 32) = i := by omega
      simp only [chField, BitVec.getLsbD_extractLsb', h, h2, e, decide_true, Bool.true_and, if_true, if_false]
    · have e : 34 + (i - 32 - 2) = i := by omega
      have h3 : i - 32 - 2 < 6 := by omega
      simp only [opField, BitVec.getLsbD_extractLsb', h, h2, h3, e, decide_true, Bool.true_and, if_false]

@[simp] theorem channel_ofCode_code (c : Channel) : Channel.ofCode c.code = c := by cases c <;> rfl
@[simp] theorem cam_ofCode_code (m : Cam) : Cam.ofCode m.code = m := by cases m <;> rfl
@[simp] theorem ocm_ofCode_code (m : Ocm) : Ocm.ofCode m.code = m := by cases m <;> rfl
@[simp] theorem channel_code_ofCode (b : BitVec 2) : (Channel.ofCode b).code = b := by revert b; decide
@[simp] theorem cam_code_ofCode (b : BitVec 2) : (Cam.ofCode b).code = b := by revert b; decide
@[simp] theorem ocm_code_ofCode (b : BitVec 3) : (Ocm.ofCode b).code = b := by revert b; decide

theorem boolArg_lt (b : Bool) : (boolArg b).toNat < 2 := by cases b <;> decide

@[simp] theorem boolArg_bit (b : Bool) : (boolArg b)[0] = b := by cases b <;> rfl

@[simp] theorem boolArg_narrow (b : Bool) : ((boolArg b).setWidth 1 == 1#1) = b := by cases b <;> rfl

/-- The machine's operand-width check passes exactly the well-formed compare values (R47 (c)). -/
theorem operandFault_none_iff (t : Tier) (ch : Channel) (v : Word) :
    Machine.operandFault t v = none ↔ (Instr.setDuty ch v).wellFormed t = true := by
  have key : v.extractLsb' 16 16 ≠ 0#16 ↔ ¬ v.toNat < 65536 := by
    rw [ne_eq, ← BitVec.toNat_inj]
    simp [BitVec.extractLsb'_toNat, Nat.shiftRight_eq_div_pow]
    omega
  cases t <;> simp [Machine.operandFault, Machine.width, Instr.wellFormed, key]

end Sys2Proof
end

