-- ==== Sys2Proof/Laws/State.lean ====
section
/-! SUPPORT. The small lemmas of the state's updates: one per field per update, and one per field write of the timer
block. -/

namespace Sys2Proof.Machine

@[simp] theorem respond_straps (st : RspStatus) (d : Word) (s : State) : (respond st d s).straps = s.straps := rfl
@[simp] theorem respond_life (st : RspStatus) (d : Word) (s : State) : (respond st d s).life = s.life := rfl
@[simp] theorem respond_clkEn (st : RspStatus) (d : Word) (s : State) : (respond st d s).clkEn = s.clkEn := rfl
@[simp] theorem respond_fault (st : RspStatus) (d : Word) (s : State) : (respond st d s).fault = s.fault := rfl
@[simp] theorem respond_fcode (st : RspStatus) (d : Word) (s : State) : (respond st d s).fcode = s.fcode := rfl
@[simp] theorem respond_fword (st : RspStatus) (d : Word) (s : State) : (respond st d s).fword = s.fword := rfl
@[simp] theorem respond_tim (st : RspStatus) (d : Word) (s : State) : (respond st d s).tim = s.tim := rfl
@[simp] theorem respond_input (st : RspStatus) (d : Word) (s : State) : (respond st d s).input = s.input := rfl
@[simp] theorem respond_rsp (st : RspStatus) (d : Word) (s : State) : (respond st d s).rsp = some ⟨st, d⟩ := rfl
@[simp] theorem respond_port (st : RspStatus) (d : Word) (s : State) : (respond st d s).port = s.port := rfl

@[simp] theorem raiseFault_straps (w : CmdWord) (c : FaultCode) (s : State) : (raiseFault w c s).straps = s.straps := rfl
@[simp] theorem raiseFault_life (w : CmdWord) (c : FaultCode) (s : State) : (raiseFault w c s).life = s.life := rfl
@[simp] theorem raiseFault_clkEn (w : CmdWord) (c : FaultCode) (s : State) : (raiseFault w c s).clkEn = s.clkEn := rfl
@[simp] theorem raiseFault_fault (w : CmdWord) (c : FaultCode) (s : State) : (raiseFault w c s).fault = true := rfl
@[simp] theorem raiseFault_fcode (w : CmdWord) (c : FaultCode) (s : State) : (raiseFault w c s).fcode = c.code := rfl
@[simp] theorem raiseFault_fword (w : CmdWord) (c : FaultCode) (s : State) : (raiseFault w c s).fword = w := rfl
@[simp] theorem raiseFault_tim (w : CmdWord) (c : FaultCode) (s : State) : (raiseFault w c s).tim = s.tim := rfl
@[simp] theorem raiseFault_input (w : CmdWord) (c : FaultCode) (s : State) : (raiseFault w c s).input = s.input := rfl
@[simp] theorem raiseFault_rsp (w : CmdWord) (c : FaultCode) (s : State) : (raiseFault w c s).rsp = some ⟨.fault, c.code.setWidth 32⟩ := rfl
@[simp] theorem raiseFault_port (w : CmdWord) (c : FaultCode) (s : State) : (raiseFault w c s).port = s.port := rfl

@[simp] theorem answerHalted_straps (s : State) : (answerHalted s).straps = s.straps := rfl
@[simp] theorem answerHalted_life (s : State) : (answerHalted s).life = s.life := rfl
@[simp] theorem answerHalted_clkEn (s : State) : (answerHalted s).clkEn = s.clkEn := rfl
@[simp] theorem answerHalted_fault (s : State) : (answerHalted s).fault = s.fault := rfl
@[simp] theorem answerHalted_fcode (s : State) : (answerHalted s).fcode = s.fcode := rfl
@[simp] theorem answerHalted_fword (s : State) : (answerHalted s).fword = s.fword := rfl
@[simp] theorem answerHalted_tim (s : State) : (answerHalted s).tim = s.tim := rfl
@[simp] theorem answerHalted_input (s : State) : (answerHalted s).input = s.input := rfl
@[simp] theorem answerHalted_rsp (s : State) : (answerHalted s).rsp = some ⟨.halted, s.fcode.setWidth 32⟩ := rfl
@[simp] theorem answerHalted_port (s : State) : (answerHalted s).port = s.port := rfl

@[simp] theorem regWr_straps (f : Field) (v : Word) (s : State) : (regWr f v s).straps = s.straps := rfl
@[simp] theorem regWr_life (f : Field) (v : Word) (s : State) : (regWr f v s).life = s.life := rfl
@[simp] theorem regWr_clkEn (f : Field) (v : Word) (s : State) : (regWr f v s).clkEn = s.clkEn := rfl
@[simp] theorem regWr_fault (f : Field) (v : Word) (s : State) : (regWr f v s).fault = s.fault := rfl
@[simp] theorem regWr_fcode (f : Field) (v : Word) (s : State) : (regWr f v s).fcode = s.fcode := rfl
@[simp] theorem regWr_fword (f : Field) (v : Word) (s : State) : (regWr f v s).fword = s.fword := rfl
@[simp] theorem regWr_tim (f : Field) (v : Word) (s : State) : (regWr f v s).tim = s.tim.write f v := rfl
@[simp] theorem regWr_input (f : Field) (v : Word) (s : State) : (regWr f v s).input = s.input := rfl
@[simp] theorem regWr_rsp (f : Field) (v : Word) (s : State) : (regWr f v s).rsp = s.rsp := rfl
@[simp] theorem regWr_port (f : Field) (v : Word) (s : State) : (regWr f v s).port = s.port ++ [.wr f v] := rfl

@[simp] theorem periphReset_straps (s : State) : (periphReset s).straps = s.straps := rfl
@[simp] theorem periphReset_life (s : State) : (periphReset s).life = s.life := rfl
@[simp] theorem periphReset_clkEn (s : State) : (periphReset s).clkEn = s.clkEn := rfl
@[simp] theorem periphReset_fault (s : State) : (periphReset s).fault = s.fault := rfl
@[simp] theorem periphReset_fcode (s : State) : (periphReset s).fcode = s.fcode := rfl
@[simp] theorem periphReset_fword (s : State) : (periphReset s).fword = s.fword := rfl
@[simp] theorem periphReset_tim (s : State) : (periphReset s).tim = Timer.atReset s.straps.tier := rfl
@[simp] theorem periphReset_input (s : State) : (periphReset s).input = s.input := rfl
@[simp] theorem periphReset_rsp (s : State) : (periphReset s).rsp = s.rsp := rfl
@[simp] theorem periphReset_port (s : State) : (periphReset s).port = s.port ++ [.periphReset] := rfl

@[simp] theorem take_straps (s : State) (rest : List HostEvent) : (s.take rest).straps = s.straps := rfl
@[simp] theorem take_life (s : State) (rest : List HostEvent) : (s.take rest).life = s.life := rfl
@[simp] theorem take_clkEn (s : State) (rest : List HostEvent) : (s.take rest).clkEn = s.clkEn := rfl
@[simp] theorem take_fault (s : State) (rest : List HostEvent) : (s.take rest).fault = s.fault := rfl
@[simp] theorem take_fcode (s : State) (rest : List HostEvent) : (s.take rest).fcode = s.fcode := rfl
@[simp] theorem take_fword (s : State) (rest : List HostEvent) : (s.take rest).fword = s.fword := rfl
@[simp] theorem take_tim (s : State) (rest : List HostEvent) : (s.take rest).tim = s.tim := rfl
@[simp] theorem take_input (s : State) (rest : List HostEvent) : (s.take rest).input = rest := rfl
@[simp] theorem take_rsp (s : State) (rest : List HostEvent) : (s.take rest).rsp = none := rfl
@[simp] theorem take_port (s : State) (rest : List HostEvent) : (s.take rest).port = [] := rfl

@[simp] theorem systemReset_straps (s : State) : (systemReset s).straps = s.straps := rfl
@[simp] theorem systemReset_life (s : State) : (systemReset s).life = .unowned := rfl
@[simp] theorem systemReset_clkEn (s : State) : (systemReset s).clkEn = false := rfl
@[simp] theorem systemReset_fault (s : State) : (systemReset s).fault = false := rfl
@[simp] theorem systemReset_fcode (s : State) : (systemReset s).fcode = 0#4 := rfl
@[simp] theorem systemReset_fword (s : State) : (systemReset s).fword = 0#40 := rfl
@[simp] theorem systemReset_tim (s : State) : (systemReset s).tim = Timer.atReset s.straps.tier := rfl
@[simp] theorem systemReset_input (s : State) : (systemReset s).input = s.input := rfl
@[simp] theorem systemReset_rsp (s : State) : (systemReset s).rsp = none := rfl
@[simp] theorem systemReset_port (s : State) : (systemReset s).port = [] := rfl

@[simp] theorem afterReset_straps (p : Straps) : (State.afterReset p).straps = p := rfl
@[simp] theorem afterReset_life (p : Straps) : (State.afterReset p).life = .unowned := rfl
@[simp] theorem afterReset_clkEn (p : Straps) : (State.afterReset p).clkEn = false := rfl
@[simp] theorem afterReset_fault (p : Straps) : (State.afterReset p).fault = false := rfl
@[simp] theorem afterReset_fcode (p : Straps) : (State.afterReset p).fcode = 0#4 := rfl
@[simp] theorem afterReset_fword (p : Straps) : (State.afterReset p).fword = 0#40 := rfl
@[simp] theorem afterReset_tim (p : Straps) : (State.afterReset p).tim = Timer.atReset p.tier := rfl
@[simp] theorem afterReset_input (p : Straps) : (State.afterReset p).input = [] := rfl
@[simp] theorem afterReset_rsp (p : Straps) : (State.afterReset p).rsp = none := rfl
@[simp] theorem afterReset_port (p : Straps) : (State.afterReset p).port = [] := rfl

@[simp] theorem present_straps (s : State) (w : CmdWord) : (s.present w).straps = s.straps := rfl
@[simp] theorem present_life (s : State) (w : CmdWord) : (s.present w).life = s.life := rfl
@[simp] theorem present_clkEn (s : State) (w : CmdWord) : (s.present w).clkEn = s.clkEn := rfl
@[simp] theorem present_fault (s : State) (w : CmdWord) : (s.present w).fault = s.fault := rfl
@[simp] theorem present_fcode (s : State) (w : CmdWord) : (s.present w).fcode = s.fcode := rfl
@[simp] theorem present_fword (s : State) (w : CmdWord) : (s.present w).fword = s.fword := rfl
@[simp] theorem present_tim (s : State) (w : CmdWord) : (s.present w).tim = s.tim := rfl
@[simp] theorem present_input (s : State) (w : CmdWord) : (s.present w).input = .cmd w :: s.input := rfl
@[simp] theorem present_rsp (s : State) (w : CmdWord) : (s.present w).rsp = s.rsp := rfl
@[simp] theorem present_port (s : State) (w : CmdWord) : (s.present w).port = s.port := rfl

@[simp] theorem write_cen (t : Timer) (v : Word) : t.write .cen v = { t with cen := v.getLsbD 0 } := rfl
@[simp] theorem write_cms (t : Timer) (v : Word) : t.write .cms v = { t with cms := v.setWidth 2 } := rfl
@[simp] theorem write_arr (t : Timer) (v : Word) : t.write .arr v = { t with arr := v } := rfl
@[simp] theorem write_ccr (t : Timer) (ch : Channel) (v : Word) : t.write (.ccr ch) v = { t with ccr := t.ccr.set ch v } := rfl
@[simp] theorem write_ocm (t : Timer) (ch : Channel) (v : Word) : t.write (.ocm ch) v = { t with ocm := t.ocm.set ch (v.setWidth 3) } := rfl
@[simp] theorem write_cce (t : Timer) (ch : Channel) (v : Word) : t.write (.cce ch) v = { t with cce := t.cce.set ch (v.getLsbD 0) } := rfl
@[simp] theorem write_moe (t : Timer) (v : Word) : t.write .moe v = { t with moe := v.getLsbD 0 } := rfl
@[simp] theorem write_ccne (t : Timer) (ch : Channel) (v : Word) : t.write (.ccne ch) v = { t with ccne := t.ccne.set ch (v.getLsbD 0) } := rfl
@[simp] theorem write_dtg (t : Timer) (v : Word) : t.write .dtg v = { t with dtg := v.setWidth 8 } := rfl
@[simp] theorem write_ckd (t : Timer) (v : Word) : t.write .ckd v = { t with ckd := v.setWidth 2 } := rfl

@[simp] theorem read_cen (t : Timer) : t.read .cen = boolArg t.cen := rfl
@[simp] theorem read_cms (t : Timer) : t.read .cms = t.cms.setWidth 32 := rfl
@[simp] theorem read_arr (t : Timer) : t.read .arr = t.arr := rfl
@[simp] theorem read_ccr (t : Timer) (ch : Channel) : t.read (.ccr ch) = t.ccr.get ch := rfl
@[simp] theorem read_ocm (t : Timer) (ch : Channel) : t.read (.ocm ch) = (t.ocm.get ch).setWidth 32 := rfl
@[simp] theorem read_cce (t : Timer) (ch : Channel) : t.read (.cce ch) = boolArg (t.cce.get ch) := rfl
@[simp] theorem read_moe (t : Timer) : t.read .moe = boolArg t.moe := rfl
@[simp] theorem read_ccne (t : Timer) (ch : Channel) : t.read (.ccne ch) = boolArg (t.ccne.get ch) := rfl
@[simp] theorem read_dtg (t : Timer) : t.read .dtg = t.dtg.setWidth 32 := rfl
@[simp] theorem read_ckd (t : Timer) : t.read .ckd = t.ckd.setWidth 32 := rfl

theorem get_set_same {α : Type} (p : PerChannel α) (ch : Channel) (a : α) : (p.set ch a).get ch = a := by
  cases ch <;> rfl

theorem get_set_other {α : Type} (p : PerChannel α) (ch other : Channel) (a : α) (h : other ≠ ch) :
    (p.set ch a).get other = p.get other := by
  cases ch <;> cases other <;> first | rfl | exact absurd rfl h

@[simp] theorem get_const {α : Type} (a : α) (ch : Channel) : (PerChannel.const a).get ch = a := by
  cases ch <;> rfl

end Sys2Proof.Machine
end

