-- ==== Sys2Proof/Laws/Ops.lean ====
section
/-! SUPPORT. One lemma per shared operation, saying once everything it can do. -/

namespace Sys2Proof.Machine

/-- A command's processing ends in a next state: its `OK` answer or its fault. -/
theorem conclude_next {w : CmdWord} {r : Result} {t : State} (h : conclude w r = .next t) :
    (∃ d s, r = .done d s ∧ t = respond .ok d s) ∨ (∃ c s, r = .raised c s ∧ t = raiseFault w c s) := by
  cases r with
  | done d s => exact .inl ⟨d, s, rfl, by simpa [conclude] using h.symm⟩
  | raised c s => exact .inr ⟨c, s, rfl, by simpa [conclude] using h.symm⟩

@[simp] theorem conclude_done (w : CmdWord) (d : Word) (s : State) :
    conclude w (.done d s) = .next (respond .ok d s) := rfl

@[simp] theorem conclude_raised (w : CmdWord) (c : FaultCode) (s : State) :
    conclude w (.raised c s) = .next (raiseFault w c s) := rfl

@[simp] theorem check_none (s : State) (r : Result) : check none s r = r := rfl

@[simp] theorem check_some (c : FaultCode) (s : State) (r : Result) : check (some c) s r = .raised c s := rfl

/-- The common conditions of group 0 pass exactly when the timer is owned (R81). -/
theorem driverCommand_eq (s : State) (r : Result) :
    driverCommand s r = if s.life = .owned then r else .raised .lifecycle s := by
  cases h : s.life <;> simp [driverCommand, availabilityFault, driverLifecycleFault, h]

/-- The common conditions of group 1, in their order (R56). -/
theorem baseCommand_eq (s : State) (r : Result) :
    baseCommand s r = if s.straps.lowlevelEn = false then .raised .unavailable s
      else if s.clkEn = false then .raised .lifecycle s else r := by
  cases h : s.straps.lowlevelEn <;> cases h2 : s.clkEn <;>
    simp [baseCommand, availabilityFault, lowLevelLifecycleFault, h, h2]

/-- The common conditions of group 2, in their order (R67). -/
theorem complementaryCommand_eq (s : State) (r : Result) :
    complementaryCommand s r = if s.straps.lowlevelEn = false ∨ s.straps.tier ≠ .adv then .raised .unavailable s
      else if s.clkEn = false then .raised .lifecycle s else r := by
  cases h : s.straps.lowlevelEn <;> cases h2 : s.clkEn <;> cases h3 : s.straps.tier <;>
    simp [complementaryCommand, availabilityFault, lowLevelLifecycleFault, h, h2, h3]

/-- A read delivers the field's value and only records itself on the port (R33). -/
theorem regRd_eq (f : Field) (s : State) (k : Word → State → Result) :
    regRd f s k = k (s.tim.read f) { s with port := s.port ++ [.rd f (s.tim.read f)] } := rfl

/-- Bits read from the 2-bit `CMS` always decode (R74). -/
theorem decodeCam_cms (b : BitVec 2) : decodeCam (b.setWidth 32) = .ok (Cam.ofCode b) := by
  revert b; decide

@[simp] theorem withCam_cms (b : BitVec 2) (s : State) (k : Cam → Result) :
    withCam (b.setWidth 32) s k = k (Cam.ofCode b) := by
  simp [withCam, decodeCam_cms]

/-- `enable_outputs` writes `MOE` or does nothing (R57). -/
theorem enableOutputs_cases (b : Bool) (s : State) :
    (s.straps.tier = .adv ∧ enableOutputs b s = regWr .moe (boolArg b) s) ∨
      (s.straps.tier ≠ .adv ∧ enableOutputs b s = s) := by
  by_cases h : s.straps.tier = .adv <;> simp [enableOutputs, h]

theorem scale_pos (m : Cam) : 0 < scale m := by cases m <;> decide

theorem width_le (t : Tier) : width t ≤ 32 := by cases t <;> decide

theorem maxp_lt (t : Tier) : maxp t < 2 ^ 32 := by cases t <;> decide

theorem maxp_lt_width (t : Tier) : maxp t < 2 ^ width t := by cases t <;> decide

/-- A period that is given is the formula's, and fits the register (R75). -/
theorem periodFromFreq_ok {p : Straps} {f : Nat} {m : Cam} {q : Nat} (h : periodFromFreq p f m = .ok q) :
    0 < f ∧ q + 1 = p.baseClockHz.toNat / (f * scale m) ∧ q ≤ maxp p.tier := by
  unfold periodFromFreq at h
  dsimp only at h
  generalize p.baseClockHz.toNat / (f * scale m) = q' at h ⊢
  split at h
  · cases h
  · split at h
    · cases h
    · split at h
      · cases h
      · cases h
        omega

/-- The only fault of the period's computation (R75). -/
theorem periodFromFreq_error {p : Straps} {f : Nat} {m : Cam} {c : FaultCode}
    (h : periodFromFreq p f m = .error c) : c = .freqRange := by
  unfold periodFromFreq at h
  dsimp only at h
  split at h
  · cases h; rfl
  · split at h
    · cases h; rfl
    · split at h <;> cases h; rfl

/-- What a command does with a period: it goes on with the formula's value, or raises `F_FREQ_RANGE` (R75). -/
theorem withPeriod_cases (f : Nat) (m : Cam) (s : State) (k : Word → Result) :
    (∃ p, periodFromFreq s.straps f m = .ok p ∧ p ≤ maxp s.straps.tier ∧
        withPeriod f m s k = k (BitVec.ofNat 32 p)) ∨
      (periodFromFreq s.straps f m = .error .freqRange ∧ withPeriod f m s k = .raised .freqRange s) := by
  cases h : periodFromFreq s.straps f m with
  | ok p => exact .inl ⟨p, rfl, (periodFromFreq_ok h).2.2, by simp [withPeriod, h]⟩
  | error c =>
    cases periodFromFreq_error h
    exact .inr ⟨rfl, by simp [withPeriod, h]⟩

/-- What the operand-width check answers (R51 step 5). -/
theorem operandFault_cases (t : Tier) (v : Word) :
    operandFault t v = none ∨ operandFault t v = some .illegalCmd := by
  unfold operandFault
  split <;> simp

/-- A compare value that passes the width check fits `W` bits. -/
theorem operandFault_none_fits {t : Tier} {v : Word} (h : operandFault t v = none) : v.toNat ≤ maxp t := by
  have hv := v.isLt
  have hw := (operandFault_none_iff t .ch1 v).mp h
  cases t <;> simp [Instr.wellFormed] at hw <;> simp [maxp, width] <;> omega

/-- A step acts on legal straps only (R31). -/
theorem step_next {s t : State} (h : step s = .next t) : s.straps.legal = true ∧ engineStep s = .next t := by
  unfold step at h
  split at h
  · exact ⟨‹_›, h⟩
  · cases h

/-- Every way a step can go on: idle, reset, halted, illegal word, or the decoded command. -/
theorem step_cases {s t : State} (h : step s = .next t) :
    (s.input = [] ∧ t = s.take []) ∨
    (∃ rest, s.input = .rst :: rest ∧ t = systemReset (s.take rest)) ∨
    (∃ w rest, s.input = .cmd w :: rest ∧
      ((s.fault = true ∧ t = answerHalted (s.take rest)) ∨
       (s.fault = false ∧ (∃ e, decode w = .error e) ∧ t = raiseFault w .illegalCmd (s.take rest)) ∨
       (s.fault = false ∧ ∃ i, decode w = .ok i ∧ exec i (s.take rest) = .next t))) := by
  have h := (step_next h).2
  unfold engineStep at h
  split at h
  · rename_i hi
    exact .inl ⟨hi, by cases h; rfl⟩
  · rename_i rest hi
    exact .inr (.inl ⟨rest, hi, by cases h; rfl⟩)
  · rename_i w rest hi
    refine .inr (.inr ⟨w, rest, hi, ?_⟩)
    unfold commandCycle at h
    split at h
    · rename_i hf
      exact .inl ⟨by simpa using hf, by cases h; rfl⟩
    · rename_i hf
      have hf' : s.fault = false := by simpa using hf
      split at h
      · rename_i e he
        exact .inr (.inl ⟨hf', ⟨e, he⟩, by cases h; rfl⟩)
      · rename_i i hd
        exact .inr (.inr ⟨hf', i, hd, h⟩)

end Sys2Proof.Machine

namespace Sys2Proof.Safety

open Sys2Proof.Machine

/-- The first step of a run of any machine. -/
theorem core_run_succ (M : Host.Core) (n : Nat) (s t : M.State) :
    M.run (n + 1) s = .next t ↔ ∃ u, M.step s = .next u ∧ M.run n u = .next t := by
  simp only [Host.Core.run]
  cases M.step s <;> simp

/-- A run of no step goes nowhere. -/
theorem run_zero (s t : State) : run 0 s = .next t ↔ s = t :=
  ⟨fun h => Host.Outcome.next.inj h, congrArg _⟩

/-- A run's first step, then the rest of the run. -/
theorem run_succ (n : Nat) (s t : State) :
    run (n + 1) s = .next t ↔ ∃ u, step s = .next u ∧ run n u = .next t :=
  core_run_succ Sys2Proof.core n s t

end Sys2Proof.Safety
end

