-- ==== Sys2Proof/Laws/PerInstr.lean ====
section
/-! SUPPORT. The one family of per-instruction facts: the word of each command carries the opcode the table gives it
(30_encoding.md R48). -/

namespace Sys2Proof.Laws.Opcode

/-- The `op` column of R48, written again from the table. -/
def number : Instr → Nat
  | .init _ _ => 0x01
  | .drop => 0x02
  | .enable _ => 0x03
  | .disable _ => 0x04
  | .setFreq _ => 0x05
  | .getFreq => 0x06
  | .getMaxDuty => 0x07
  | .setDuty _ _ => 0x08
  | .getDuty _ => 0x09
  | .setOcm _ _ => 0x0A
  | .setCam _ => 0x0B
  | .getCam => 0x0C
  | .llEnableOutputs _ => 0x10
  | .llSetOcm _ _ => 0x11
  | .llEnableCh _ _ => 0x12
  | .llSetCmp _ _ => 0x13
  | .llGetCmp _ => 0x14
  | .llGetMaxCmp => 0x15
  | .llIsTimEn => 0x16
  | .llSetTimEn _ => 0x17
  | .llSetCam _ => 0x18
  | .llGetCam => 0x19
  | .llSetDtCkd _ => 0x20
  | .llSetDtVal _ => 0x21
  | .llEnableNch _ _ => 0x22

/-- The opcode field of the command's word is the table's opcode. -/
def Statement (i : Instr) : Prop := (opField (encode i)).toNat = number i

theorem init (f : Word) (mode : Cam) : Statement (.init f mode) := by simp [Statement, encode, number]
theorem drop : Statement (.drop) := by simp [Statement, encode, number]
theorem enable (ch : Channel) : Statement (.enable ch) := by simp [Statement, encode, number]
theorem disable (ch : Channel) : Statement (.disable ch) := by simp [Statement, encode, number]
theorem setFreq (f : Word) : Statement (.setFreq f) := by simp [Statement, encode, number]
theorem getFreq : Statement (.getFreq) := by simp [Statement, encode, number]
theorem getMaxDuty : Statement (.getMaxDuty) := by simp [Statement, encode, number]
theorem setDuty (ch : Channel) (v : Word) : Statement (.setDuty ch v) := by simp [Statement, encode, number]
theorem getDuty (ch : Channel) : Statement (.getDuty ch) := by simp [Statement, encode, number]
theorem setOcm (ch : Channel) (ocm : Ocm) : Statement (.setOcm ch ocm) := by simp [Statement, encode, number]
theorem setCam (mode : Cam) : Statement (.setCam mode) := by simp [Statement, encode, number]
theorem getCam : Statement (.getCam) := by simp [Statement, encode, number]
theorem llEnableOutputs (b : Bool) : Statement (.llEnableOutputs b) := by simp [Statement, encode, number]
theorem llSetOcm (ch : Channel) (ocm : Ocm) : Statement (.llSetOcm ch ocm) := by simp [Statement, encode, number]
theorem llEnableCh (ch : Channel) (b : Bool) : Statement (.llEnableCh ch b) := by simp [Statement, encode, number]
theorem llSetCmp (ch : Channel) (v : Word) : Statement (.llSetCmp ch v) := by simp [Statement, encode, number]
theorem llGetCmp (ch : Channel) : Statement (.llGetCmp ch) := by simp [Statement, encode, number]
theorem llGetMaxCmp : Statement (.llGetMaxCmp) := by simp [Statement, encode, number]
theorem llIsTimEn : Statement (.llIsTimEn) := by simp [Statement, encode, number]
theorem llSetTimEn (b : Bool) : Statement (.llSetTimEn b) := by simp [Statement, encode, number]
theorem llSetCam (mode : Cam) : Statement (.llSetCam mode) := by simp [Statement, encode, number]
theorem llGetCam : Statement (.llGetCam) := by simp [Statement, encode, number]
theorem llSetDtCkd (v : BitVec 2) : Statement (.llSetDtCkd v) := by simp [Statement, encode, number]
theorem llSetDtVal (v : BitVec 8) : Statement (.llSetDtVal v) := by simp [Statement, encode, number]
theorem llEnableNch (ch : Channel) (b : Bool) : Statement (.llEnableNch ch b) := by simp [Statement, encode, number]

end Sys2Proof.Laws.Opcode
end

