-- ==== Sys2Proof/Laws/Port.lean ====
section
/-! SUPPORT. The small lemmas of register-port traces (20_memory.md R33, R36, R38), and the widths of the values
operands put on the port. -/

namespace Sys2Proof.Safety

open Sys2Proof.Machine

@[simp] theorem applyOps_nil (t : Tier) (tim : Timer) : applyOps t tim [] = tim := rfl

@[simp] theorem applyOps_cons (t : Tier) (tim : Timer) (op : RegOp) (ops : List RegOp) :
    applyOps t tim (op :: ops) = applyOps t (applyOp t tim op) ops := rfl

theorem applyOps_append (t : Tier) (tim : Timer) (a b : List RegOp) :
    applyOps t tim (a ++ b) = applyOps t (applyOps t tim a) b := by
  simp [applyOps]

@[simp] theorem applyOp_rd (t : Tier) (tim : Timer) (f : Field) (v : Word) : applyOp t tim (.rd f v) = tim := rfl

@[simp] theorem applyOp_wr (t : Tier) (tim : Timer) (f : Field) (v : Word) :
    applyOp t tim (.wr f v) = tim.write f v := rfl

@[simp] theorem applyOp_periphReset (t : Tier) (tim : Timer) :
    applyOp t tim .periphReset = Timer.atReset t := rfl

@[simp] theorem writesFit_nil (t : Tier) : writesFit t [] := by simp [writesFit]

theorem writesFit_append (t : Tier) (a b : List RegOp) :
    writesFit t (a ++ b) ↔ writesFit t a ∧ writesFit t b := by
  simp only [writesFit, List.mem_append]
  exact ⟨fun h => ⟨fun f v m => h f v (.inl m), fun f v m => h f v (.inr m)⟩,
    fun h f v m => m.elim (h.1 f v) (h.2 f v)⟩

theorem writesFit_cons (t : Tier) (op : RegOp) (ops : List RegOp) :
    writesFit t (op :: ops) ↔ writesFit t [op] ∧ writesFit t ops := writesFit_append t [op] ops

@[simp] theorem writesFit_rd (t : Tier) (f : Field) (v : Word) : writesFit t [.rd f v] := by simp [writesFit]

@[simp] theorem writesFit_periphReset (t : Tier) : writesFit t [.periphReset] := by simp [writesFit]

theorem writesFit_wr (t : Tier) (f : Field) (v : Word) :
    writesFit t [.wr f v] ↔ f.present t = true ∧ v.toNat < 2 ^ f.width t := by
  simp only [writesFit, List.mem_singleton, RegOp.wr.injEq]
  exact ⟨fun h => h f v ⟨rfl, rfl⟩, fun h f' v' e => by rw [e.1, e.2]; exact h⟩

theorem camValue_lt (m : Cam) : (camValue m).toNat < 4 := by cases m <;> decide

theorem ocmValue_lt (m : Ocm) : (ocmValue m).toNat < 8 := by cases m <;> decide

/-- A period the formula gives is not truncated by `ARR`'s 32 bits. -/
theorem period_toNat {p : Nat} {t : Tier} (h : p ≤ maxp t) : (BitVec.ofNat 32 p).toNat = p := by
  have := maxp_lt t
  rw [BitVec.toNat_ofNat]
  omega

theorem faultCode_range (c : FaultCode) : 1 ≤ c.code.toNat ∧ c.code.toNat ≤ 7 := by cases c <;> decide

end Sys2Proof.Safety
end

