-- ==== Sys2Proof/Tests/Slice0.lean ====
section
/-! SUPPORT. The model's own tests. Expected values are the spec's: E, V, F and P name rows of
spec/95_test_vectors.md, R<n> a rule's example. Then one witness for each statement that has hypotheses. -/

namespace Sys2Proof.Tests

open Sys2Proof Sys2Proof.Machine Sys2Proof.Safety

/-! ## Helpers -/

/-- The state after system reset of the vectors, `BASE_CLOCK_HZ` = 32000000. -/
def cold (t : Tier) (ll : Bool) : State := State.afterReset ⟨t, ll, 32000000#32⟩

/-- The state after `INIT 1000, EDGE` (E1a). -/
def running (t : Tier) (ll : Bool) : State :=
  { cold t ll with
    life := .owned, clkEn := true,
    tim := { Timer.atReset t with
      cen := true, arr := 31999#32, ocm := PerChannel.const 6#3, moe := decide (t = .adv) } }

/-- `running` with another period and mode. -/
def runningAt (t : Tier) (ll : Bool) (arr : Word) (cms : BitVec 2) : State :=
  { running t ll with tim := { (running t ll).tim with arr := arr, cms := cms } }

/-- `running` with the counter stopped. -/
def stopped (t : Tier) (ll : Bool) : State :=
  { running t ll with tim := { (running t ll).tim with cen := false } }

/-- The state a step leads to. -/
def nxt (s : State) : State := (nextState (step s)).getD s

/-- The state after one command word. -/
def after (s : State) (w : CmdWord) : State := nxt (s.present w)

/-- The state that `exec` leads to. -/
def done (i : Instr) (s : State) : State := (nextState (exec i s)).getD s

theorem next_getD {o : Host.Outcome State Fault Refusal} {s : State} (h : (nextState o).isSome = true) :
    o = .next ((nextState o).getD s) := by
  cases o <;> simp_all [nextState]

theorem step_nxt {s : State} (h : (nextState (step s)).isSome = true) : step s = .next (nxt s) := next_getD h

theorem exec_done {i : Instr} {s : State} (h : (nextState (exec i s)).isSome = true) :
    exec i s = .next (done i s) := next_getD h

/-! ## Well-formedness and straps: each check refuses an ill-formed term -/

/-- R47 (c), V26: a compare value wider than a 16-bit tier. -/
theorem test_wellFormed_setDuty : (Instr.setDuty .ch1 0x10000#32).wellFormed .gp16 = false ∧
    (Instr.setDuty .ch1 0xFFFF#32).wellFormed .gp16 = true := by decide
/-- R47 (c), E3: the same for `LL_SET_CMP`, which `GP32` takes. -/
theorem test_wellFormed_llSetCmp : (Instr.llSetCmp .ch1 0xFFFFFFFF#32).wellFormed .adv = false ∧
    (Instr.llSetCmp .ch1 0xFFFFFFFF#32).wellFormed .gp32 = true := by decide
/-- R31: a zero base clock is not legal. -/
theorem test_straps_zero_clock : (Straps.mk .gp16 false 0#32).legal = false := by decide
/-- R31: the pins `tier` = 3 and `base_clock_hz` = 0 build no engine. -/
theorem test_pins_refused : strapsOfPins 3#2 true 32000000#32 = none ∧ strapsOfPins 0#2 true 0#32 = none := by decide
/-- U11: a machine on illegal straps does not run. -/
theorem test_step_refuses_illegal_straps : nextState (step (State.afterReset ⟨.gp16, false, 0#32⟩)) = none := by decide

/-! ## Decoding: one word per command as the spec writes it, and words that spell no command -/

theorem test_decode_init : decode 0x05000003E8#40 = .ok (.init 1000#32 .center1) := by decide
theorem test_decode_drop : decode 0x0800000000#40 = .ok .drop := by decide
theorem test_decode_enable : decode 0x0F00000000#40 = .ok (.enable .ch4) := by decide
theorem test_decode_disable : decode 0x1200000000#40 = .ok (.disable .ch3) := by decide
theorem test_decode_setFreq : decode 0x1400000BB8#40 = .ok (.setFreq 3000#32) := by decide
theorem test_decode_getFreq : decode 0x1800000000#40 = .ok .getFreq := by decide
theorem test_decode_getMaxDuty : decode 0x1C00000000#40 = .ok .getMaxDuty := by decide
theorem test_decode_setDuty : decode 0x2100007CFE#40 = .ok (.setDuty .ch2 31998#32) := by decide
theorem test_decode_getDuty : decode 0x2700000000#40 = .ok (.getDuty .ch4) := by decide
theorem test_decode_setOcm : decode 0x2800000005#40 = .ok (.setOcm .ch1 .forceActive) := by decide
theorem test_decode_setCam : decode 0x2C00000003#40 = .ok (.setCam .center3) := by decide
theorem test_decode_getCam : decode 0x3000000000#40 = .ok .getCam := by decide
theorem test_decode_llEnableOutputs : decode 0x4000000001#40 = .ok (.llEnableOutputs true) := by decide
theorem test_decode_llSetOcm : decode 0x4500000007#40 = .ok (.llSetOcm .ch2 .pwm2) := by decide
theorem test_decode_llEnableCh : decode 0x4A00000001#40 = .ok (.llEnableCh .ch3 true) := by decide
theorem test_decode_llSetCmp : decode 0x4D00010000#40 = .ok (.llSetCmp .ch2 65536#32) := by decide
theorem test_decode_llGetCmp : decode 0x5100000000#40 = .ok (.llGetCmp .ch2) := by decide
theorem test_decode_llGetMaxCmp : decode 0x5400000000#40 = .ok .llGetMaxCmp := by decide
theorem test_decode_llIsTimEn : decode 0x5800000000#40 = .ok .llIsTimEn := by decide
theorem test_decode_llSetTimEn : decode 0x5C00000000#40 = .ok (.llSetTimEn false) := by decide
theorem test_decode_llSetCam : decode 0x6000000002#40 = .ok (.llSetCam .center2) := by decide
theorem test_decode_llGetCam : decode 0x6400000000#40 = .ok .llGetCam := by decide
theorem test_decode_llSetDtCkd : decode 0x8000000001#40 = .ok (.llSetDtCkd 1#2) := by decide
theorem test_decode_llSetDtVal : decode 0x84000000C8#40 = .ok (.llSetDtVal 200#8) := by decide
theorem test_decode_llEnableNch : decode 0x8B00000001#40 = .ok (.llEnableNch .ch4 true) := by decide
/-- V1, V2, V6, V8, V9: unassigned opcodes. -/
theorem test_decode_unassigned : decode 0x0000000000#40 = .error .unassignedOpcode ∧
    decode 0xFFFFFFFFFF#40 = .error .unassignedOpcode ∧ decode 0x3400000000#40 = .error .unassignedOpcode ∧
    decode 0x6800000000#40 = .error .unassignedOpcode ∧ decode 0x8C00000000#40 = .error .unassignedOpcode := by decide
/-- V3, V4, V5, V7: a bit that must be 0 is set. -/
theorem test_decode_reserved : decode 0x0900000000#40 = .error .reservedBitSet ∧
    decode 0x2C00000004#40 = .error .reservedBitSet ∧ decode 0x2800000008#40 = .error .reservedBitSet ∧
    decode 0x1800000001#40 = .error .reservedBitSet := by decide
/-- V10, V11, V12: the same for the other formats. -/
theorem test_decode_reserved_low : decode 0x1500000000#40 = .error .reservedBitSet ∧
    decode 0x4000000002#40 = .error .reservedBitSet ∧ decode 0x8400000100#40 = .error .reservedBitSet := by decide
/-- A table row's word: `LL_SET_DT_VAL`, 40 bits. -/
theorem test_decodeTableWord : decodeTableWord 40 0x8400000040 = some (.llSetDtVal 64#8) := by decide
/-- R52, R53: the assembler, comments, the omitted mode, and a value too wide for its field. -/
theorem test_assembler : assembleLine "INIT 1000 ; default mode".toList = some (.init 1000#32 .edge) ∧
    assembleLine "LL_SET_DT_VAL 256".toList = none := by decide

/-! ## The pure functions (F rows) -/

/-- F3, F4, F9, F10, F11. -/
theorem test_periodFromFreq : periodFromFreq ⟨.gp16, false, 32000000#32⟩ 1000 .edge = .ok 31999 ∧
    periodFromFreq ⟨.gp16, false, 32000000#32⟩ 1000 .center2 = .ok 15999 ∧
    periodFromFreq ⟨.gp16, false, 32000000#32⟩ 489 .edge = .ok 65438 ∧
    periodFromFreq ⟨.gp16, false, 32000000#32⟩ 488 .edge = .error .freqRange ∧
    periodFromFreq ⟨.gp32, false, 32000000#32⟩ 488 .edge = .ok 65572 := by decide
/-- F14, F15, F16, F17, F18, F19. -/
theorem test_periodFromFreq_edges : periodFromFreq ⟨.gp16, false, 65536#32⟩ 1 .edge = .ok 65535 ∧
    periodFromFreq ⟨.gp16, false, 65537#32⟩ 1 .edge = .error .freqRange ∧
    periodFromFreq ⟨.gp32, false, 4294967295#32⟩ 1 .edge = .ok 4294967294 ∧
    periodFromFreq ⟨.gp32, false, 4294967295#32⟩ 4294967295 .center1 = .error .freqRange ∧
    periodFromFreq ⟨.gp16, false, 1#32⟩ 1 .edge = .ok 0 ∧
    periodFromFreq ⟨.gp16, false, 1#32⟩ 1 .center1 = .error .freqRange := by decide
/-- F20, F22, F24, F25, F26, F28, F29. -/
theorem test_freqFromPeriod : freqFromPeriod ⟨.gp16, false, 32000000#32⟩ 31999 .edge = 1000 ∧
    freqFromPeriod ⟨.gp16, false, 32000000#32⟩ 31999 .center1 = 500 ∧
    freqFromPeriod ⟨.gp16, false, 32000000#32⟩ 65535 .edge = 488 ∧
    freqFromPeriod ⟨.gp16, false, 32000000#32⟩ 65535 .center1 = 244 ∧
    freqFromPeriod ⟨.gp32, false, 32000000#32⟩ 4294967295 .center1 = 0 ∧
    freqFromPeriod ⟨.gp32, false, 32000000#32⟩ 32000000 .edge = 0 ∧
    freqFromPeriod ⟨.gp16, false, 32000000#32⟩ 5 .edge = 5333333 := by decide
/-- F30, and an encoding outside the four (R74). -/
theorem test_decodeCam : decodeCam 3#32 = .ok .center3 ∧ decodeCam 4#32 = .error .camEncoding := by decide

/-! ## Group 0 -/

/-- E1a. -/
theorem test_init : (after (cold .gp16 false) 0x04000003E8#40).tim = (running .gp16 false).tim ∧
    (after (cold .gp16 false) 0x04000003E8#40).rsp = some ⟨.ok, 0#32⟩ := by decide
/-- V33: steps 1 to 3 stay done. -/
theorem test_init_freq_zero : (after (cold .gp16 false) 0x0600000000#40).tim
      = { Timer.atReset .gp16 with cms := 2#2 } ∧
    (after (cold .gp16 false) 0x0600000000#40).fcode = 5#4 := by decide
/-- V18c: only `LIFE` changes. -/
theorem test_drop : after (running .gp16 true) 0x0800000000#40
    = { running .gp16 true with life := .unowned, rsp := some ⟨.ok, 0#32⟩ } := by decide
/-- V15. -/
theorem test_drop_cold : (after (cold .gp16 false) 0x0800000000#40).fcode = 3#4 := by decide
/-- V43e. -/
theorem test_enable : (after (running .gp16 false) 0x0F00000000#40).tim.cce = ⟨false, false, false, true⟩ := by decide
/-- V43d: enabling twice does not invert. -/
theorem test_enable_twice : (after (after (running .gp16 false) 0x0C00000000#40) 0x0C00000000#40).tim.cce
    = ⟨true, false, false, false⟩ := by decide
/-- V43f. -/
theorem test_disable : (after (after (running .gp16 false) 0x0C00000000#40) 0x1000000000#40).tim.cce
    = PerChannel.const false := by decide
/-- V44b. -/
theorem test_setFreq : (after (running .gp16 false) 0x1400000BB8#40).tim
    = { (running .gp16 false).tim with arr := 10665#32 } := by decide
/-- V45d: 488 Hz does not fit 16 bits, `ARR` stays. -/
theorem test_setFreq_too_low : (after (runningAt .gp16 false 65438#32 0#2) 0x14000001E8#40).fcode = 5#4 ∧
    (after (runningAt .gp16 false 65438#32 0#2) 0x14000001E8#40).tim.arr = 65438#32 := by decide
/-- V44g. -/
theorem test_getFreq : (after (runningAt .gp16 false 5#32 0#2) 0x1800000000#40).rsp
    = some ⟨.ok, 5333333#32⟩ := by decide
/-- V72g: the same period counts twice in a center-aligned mode. -/
theorem test_getFreq_center : (after (runningAt .gp16 false 31999#32 1#2) 0x1800000000#40).rsp
    = some ⟨.ok, 500#32⟩ := by decide
/-- E1b. -/
theorem test_getMaxDuty : (after (running .gp16 false) 0x1C00000000#40).rsp = some ⟨.ok, 31999#32⟩ := by decide
/-- V49c: the largest legal duty. -/
theorem test_setDuty : (after (running .gp16 false) 0x2100007CFE#40).tim.ccr
    = ⟨0#32, 31998#32, 0#32, 0#32⟩ := by decide
/-- V50b: a duty equal to the period is refused. -/
theorem test_setDuty_at_period : (after (running .gp16 false) 0x2000007CFF#40).fcode = 4#4 ∧
    (after (running .gp16 false) 0x2000007CFF#40).fword = 0x2000007CFF#40 := by decide
/-- V68e: a value above the period is returned. -/
theorem test_getDuty : (after (after (running .gp16 true) 0x4D0000FFFF#40) 0x2500000000#40).rsp
    = some ⟨.ok, 65535#32⟩ := by decide
/-- V56e. -/
theorem test_setOcm : (after (running .gp16 false) 0x2A00000003#40).tim.ocm = ⟨6#3, 6#3, 3#3, 6#3⟩ := by decide
/-- E2d. -/
theorem test_setCam : (after (running .gp16 false) 0x2C00000001#40).tim
    = { (running .gp16 false).tim with cms := 1#2, arr := 15999#32 } := by decide
/-- V60c: the counter stopped, the new mode written, the old period kept. -/
theorem test_setCam_overflow : (after (runningAt .gp16 false 53332#32 1#2) 0x2C00000000#40).tim
      = { (running .gp16 false).tim with cen := false, cms := 0#2, arr := 53332#32 } ∧
    (after (runningAt .gp16 false 53332#32 1#2) 0x2C00000000#40).fcode = 5#4 := by decide
/-- V32c. -/
theorem test_getCam : (after (runningAt .adv false 15999#32 3#2) 0x3000000000#40).rsp = some ⟨.ok, 3#32⟩ := by decide

/-! ## Group 1 -/

/-- V66b. -/
theorem test_llEnableOutputs : (after (running .adv true) 0x4000000000#40).tim.moe = false := by decide
/-- V65c: accepted on a GP tier, nothing written. -/
theorem test_llEnableOutputs_gp : after (running .gp16 true) 0x4000000001#40
    = { running .gp16 true with rsp := some ⟨.ok, 0#32⟩ } := by decide
/-- V67b. -/
theorem test_llSetOcm : (after (running .gp16 true) 0x4500000007#40).tim.ocm = ⟨6#3, 7#3, 6#3, 6#3⟩ := by decide
/-- V67d. -/
theorem test_llEnableCh : (after (running .gp16 true) 0x4A00000001#40).tim.cce
    = ⟨false, false, true, false⟩ := by decide
/-- E3b. -/
theorem test_llSetCmp : (after (running .gp32 true) 0x4CFFFFFFFF#40).tim.ccr
    = ⟨0xFFFFFFFF#32, 0#32, 0#32, 0#32⟩ := by decide
/-- V24b. -/
theorem test_llSetCmp_wide : (after (running .gp16 true) 0x4C00010000#40).fcode = 1#4 ∧
    (after (running .gp16 true) 0x4C00010000#40).tim = (running .gp16 true).tim := by decide
/-- E3e. -/
theorem test_llGetCmp : (after (after (running .gp32 true) 0x4D00010000#40) 0x5100000000#40).rsp
    = some ⟨.ok, 65536#32⟩ := by decide
/-- V18e: also after `DROP`. -/
theorem test_llGetMaxCmp : (after (after (running .gp16 true) 0x0800000000#40) 0x5400000000#40).rsp
    = some ⟨.ok, 31999#32⟩ := by decide
/-- V69b, V69d. -/
theorem test_llIsTimEn : (after (running .gp16 true) 0x5800000000#40).rsp = some ⟨.ok, 1#32⟩ ∧
    (after (stopped .gp16 true) 0x5800000000#40).rsp = some ⟨.ok, 0#32⟩ := by decide
/-- V69c. -/
theorem test_llSetTimEn : (after (running .gp16 true) 0x5C00000000#40).tim = (stopped .gp16 true).tim := by decide
/-- V72c: no rescaling, the counter stays stopped. -/
theorem test_llSetCam : (after (stopped .gp16 true) 0x6000000001#40).tim
    = { (stopped .gp16 true).tim with cms := 1#2 } := by decide
/-- V71: a running counter, even to the mode already held. -/
theorem test_llSetCam_running : (after (running .gp16 true) 0x6000000000#40).fcode = 7#4 := by decide
/-- V72i. -/
theorem test_llGetCam : (after (runningAt .gp16 true 31999#32 2#2) 0x6400000000#40).rsp
    = some ⟨.ok, 2#32⟩ := by decide

/-! ## Group 2 -/

/-- V73c: 3 is stored as it is. -/
theorem test_llSetDtCkd : (after (running .adv true) 0x8000000003#40).tim
    = { (running .adv true).tim with ckd := 3#2 } := by decide
/-- V73e. -/
theorem test_llSetDtVal : (after (running .adv true) 0x84000000FF#40).tim
    = { (running .adv true).tim with dtg := 255#8 } := by decide
/-- V20b. -/
theorem test_llSetDtVal_gp32 : (after (running .gp32 true) 0x8400000040#40).fcode = 2#4 := by decide
/-- V74c. -/
theorem test_llEnableNch : (after (running .adv true) 0x8B00000001#40).tim
    = { (running .adv true).tim with ccne := ⟨false, false, false, true⟩ } := by decide
/-- V21b. -/
theorem test_llEnableNch_normal_level : (after (running .adv false) 0x8800000001#40).fcode = 2#4 := by decide

/-! ## Faults, the halted state, priority, reset -/

/-- V1: an illegal word, and nothing else changes. -/
theorem test_illegal_word : after (cold .gp16 false) 0#40
    = { cold .gp16 false with fault := true, fcode := 1#4, rsp := some ⟨.fault, 1#32⟩ } := by decide
/-- V13c: the halted answer. -/
theorem test_halted : (after (after (running .gp16 false) 0x2000007CFF#40) 0x1C00000000#40).rsp
    = some ⟨.halted, 4#32⟩ := by decide
/-- V22, V23, V24: availability before lifecycle before operand width. -/
theorem test_priority : (after (cold .gp16 false) 0x4C00010000#40).fcode = 2#4 ∧
    (after (cold .gp16 true) 0x4C00010000#40).fcode = 3#4 := by decide
/-- V25: lifecycle before operand width in group 0. -/
theorem test_priority_driver : (after (cold .gp16 false) 0x2000010000#40).fcode = 3#4 := by decide
/-- R112: reset leaves the halted state and resets everything but the straps. -/
theorem test_rst : nxt { after (running .adv true) 0#40 with input := [.rst] } = cold .adv true := by decide
/-- R82 steps 2 to 7: the register operations of `INIT` on `ADV`, in order. -/
theorem test_init_port : (after (cold .adv false) 0x04000003E8#40).port =
    [.periphReset, .wr .cms 0#32, .wr .arr 31999#32, .wr .cen 1#32, .wr .moe 1#32, .wr (.ocm .ch1) 6#32,
      .wr (.ocm .ch2) 6#32, .wr (.ocm .ch3) 6#32, .wr (.ocm .ch4) 6#32] := by decide
/-- R31: the pins after a fault. -/
theorem test_pins : pinFault (after (cold .gp16 false) 0#40) = true ∧
    pinRspStatus (after (cold .gp16 false) 0#40) = some 1#2 ∧
    pinRspData (after (cold .gp16 false) 0#40) = some 1#32 ∧
    pinClkEn (running .gp16 false) = true ∧ pinCmdReady (running .gp16 false) = true := by decide

/-! ## Witnesses: concrete states and operands that meet the hypotheses of each statement that has some -/

/-- `running` with the words of a stream still to come. -/
def fed (s : State) (ws : List CmdWord) : State := { s with input := ws.map .cmd }

/-- A halted engine: V1's state. -/
def halted : State := after (cold .gp16 false) 0#40

/-- The state a run of `n` steps leads to. -/
def ran (n : Nat) (s : State) : State := (nextState (run n s)).getD s

theorem run_ran {n : Nat} {s : State} (h : (nextState (run n s)).isSome = true) : run n s = .next (ran n s) :=
  next_getD h

theorem witness_EncodeOfDecodeReturnsWord : decode 0x23FFFFFFFF#40 = .ok (.setDuty .ch4 0xFFFFFFFF#32) := by decide

theorem witness_WordSpellsCommandIffOneRowMatches : ⟨"SET_CAM", 0x2C00000000#40, 0xFFFFFFFFFC#40⟩ ∈ opcodeMap ∧
    OpcodeRow.hits ⟨"SET_CAM", 0x2C00000000#40, 0xFFFFFFFFFC#40⟩ 0x2C00000003#40 = true := by decide

theorem witness_StepRunsDecodedCommand : (fed (running .gp16 false) [0x2300000FFF#40]).straps.legal = true ∧
    (fed (running .gp16 false) [0x2300000FFF#40]).fault = false ∧
    (fed (running .gp16 false) [0x2300000FFF#40]).input = .cmd 0x2300000FFF#40 :: [] ∧
    decode 0x2300000FFF#40 = .ok (.setDuty .ch4 4095#32) := by decide

/-- V3's word: one reserved bit set. -/
theorem witness_IllegalWordRaisesIllegalCommand : (fed (running .adv true) [0x0900000000#40]).straps.legal = true ∧
    (fed (running .adv true) [0x0900000000#40]).fault = false ∧
    (fed (running .adv true) [0x0900000000#40]).input = .cmd 0x0900000000#40 :: [] ∧
    ∀ r ∈ opcodeMap, r.hits 0x0900000000#40 = false := by decide

theorem witness_IdleEngineHoldsState : (running .gp16 false).straps.legal = true ∧
    (running .gp16 false).input = [] := by decide

theorem witness_SystemResetGivesResetValues : ({ halted with input := [.rst, .cmd 0#40] } : State).straps.legal = true ∧
    ({ halted with input := [.rst, .cmd 0#40] } : State).input = .rst :: [.cmd 0#40] := by decide

theorem witness_RaisedFaultLatchesAcceptedWord : ∃ t, (fed (running .gp16 false) [0x2000007CFF#40]).input
      = .cmd 0x2000007CFF#40 :: [] ∧ (fed (running .gp16 false) [0x2000007CFF#40]).fault = false ∧
    step (fed (running .gp16 false) [0x2000007CFF#40]) = .next t ∧ t.fault = true :=
  ⟨nxt (fed (running .gp16 false) [0x2000007CFF#40]), by decide, by decide, step_nxt (by decide), by decide⟩

theorem witness_HaltedEngineAnswersHalted : (fed halted [0x0400000001#40]).straps.legal = true ∧
    (fed halted [0x0400000001#40]).fault = true ∧
    (fed halted [0x0400000001#40]).input = .cmd 0x0400000001#40 :: [] := by decide

theorem witness_HaltedEngineStaysUntilReset : ∃ t, (fed halted [0#40, 0x04000003E8#40]).fault = true ∧
    (∀ e ∈ (fed halted [0#40, 0x04000003E8#40]).input, e ≠ .rst) ∧
    run 3 (fed halted [0#40, 0x04000003E8#40]) = .next t :=
  ⟨ran 3 (fed halted [0#40, 0x04000003E8#40]), by decide, by decide, run_ran (by decide)⟩

/-- Both clauses: a halted engine, and a released one. -/
theorem witness_OnlySystemResetClearsFaultAndClock : (∃ t, step (fed halted [0x0400000001#40]) = .next t ∧
      (∀ rest, (fed halted [0x0400000001#40]).input ≠ .rst :: rest) ∧ (fed halted [0x0400000001#40]).fault = true) ∧
    (∃ t, step (fed (running .gp16 false) [0x0800000000#40]) = .next t ∧
      (∀ rest, (fed (running .gp16 false) [0x0800000000#40]).input ≠ .rst :: rest) ∧
      (fed (running .gp16 false) [0x0800000000#40]).clkEn = true) :=
  ⟨⟨nxt (fed halted [0x0400000001#40]), step_nxt (by decide), (by intro r h; cases h), by decide⟩,
    ⟨nxt (fed (running .gp16 false) [0x0800000000#40]), step_nxt (by decide), (by intro r h; cases h), by decide⟩⟩

/-- The largest of the three codes: `F_LIFECYCLE`, an `INIT` of an owned timer. -/
theorem witness_EarlyFaultsTouchNoRegister : ∃ t, step (fed (running .gp16 false) [0x04000003E8#40]) = .next t ∧
    (fed (running .gp16 false) [0x04000003E8#40]).fault = false ∧ t.fault = true ∧ t.fcode.toNat = 3 :=
  ⟨nxt (fed (running .gp16 false) [0x04000003E8#40]), step_nxt (by decide), by decide, by decide, by decide⟩

/-- One witness a clause; the operand is the least that is too wide. -/
theorem witness_DriverCommandsCheckOwnership : (Instr.init 1000#32 .edge).group = .driver ∧
    (running .gp16 false).life = .owned ∧ Instr.drop.group = .driver ∧ (cold .gp16 false).life = .unowned ∧
    (∀ f m, Instr.drop ≠ .init f m) ∧ (Instr.setDuty .ch1 65536#32).group = .driver ∧
    (running .adv false).life = .owned ∧ (running .adv false).straps.tier ≠ .gp32 ∧ 65536 ≤ (65536#32).toNat :=
  ⟨by decide, by decide, by decide, by decide, (by intro f m h; cases h), by decide, by decide, by decide, by decide⟩

/-- One witness a clause. -/
theorem witness_BaseCommandsCheckAccess : Instr.llGetMaxCmp.group = .base ∧
    (running .gp16 false).straps.lowlevelEn = false ∧ (cold .gp16 true).straps.lowlevelEn = true ∧
    (cold .gp16 true).clkEn = false ∧ (Instr.llSetCmp .ch4 65536#32).group = .base ∧
    (running .gp16 true).straps.lowlevelEn = true ∧ (running .gp16 true).clkEn = true ∧
    (running .gp16 true).straps.tier ≠ .gp32 ∧ 65536 ≤ (65536#32).toNat := by decide

/-- One witness a clause. -/
theorem witness_ComplementaryCommandsCheckAccess : (Instr.llSetDtVal 255#8).group = .complementary ∧
    (running .adv false).straps.lowlevelEn = false ∧ (running .gp32 true).straps.tier ≠ .adv ∧
    (cold .adv true).straps.lowlevelEn = true ∧ (cold .adv true).straps.tier = .adv ∧
    (cold .adv true).clkEn = false := by decide

/-- V45, F9 to F11: the least frequency a 16-bit tier takes, and the one below it. -/
theorem witness_InitConfiguresAndStarts : (cold .gp16 false).life = .unowned ∧
    periodFromFreq (cold .gp16 false).straps (489#32).toNat .edge = .ok 65438 ∧
    periodFromFreq (cold .gp16 false).straps (488#32).toNat .edge = .error .freqRange ∧
    (running .gp16 false).life = .owned := by decide

theorem witness_DropReleasesOnly : (running .gp16 false).life = .owned ∧ (cold .gp16 false).life = .unowned := by
  decide
theorem witness_EnableSetsChannelBit : (running .gp32 false).life = .owned := by decide
theorem witness_DisableClearsChannelBit : (running .adv false).life = .owned := by decide

theorem witness_SetFreqWritesPeriod : (running .gp16 false).life = .owned ∧
    periodFromFreq (running .gp16 false).straps (489#32).toNat (Cam.ofCode (running .gp16 false).tim.cms) = .ok 65438 ∧
    periodFromFreq (running .gp16 false).straps (488#32).toNat (Cam.ofCode (running .gp16 false).tim.cms)
      = .error .freqRange := by decide

theorem witness_GetFreqAnswersEffectiveFrequency : (running .gp16 false).life = .owned := by decide
theorem witness_GetMaxDutyAnswersPeriod : (running .gp32 true).life = .owned := by decide

/-- The last duty below the period, the period itself, and the widest operand of each width. -/
theorem witness_SetDutyIsStrictlyBounded : (running .gp16 false).life = .owned ∧ (31999#32).toNat < 65536 ∧
    (31998#32).toNat < (running .gp16 false).tim.arr.toNat ∧
    (running .gp16 false).tim.arr.toNat ≤ (31999#32).toNat ∧ (65535#32).toNat < 65536 ∧
    (running .gp32 false).life = .owned ∧ (running .gp32 false).straps.tier = .gp32 ∧
    (running .gp32 false).tim.arr.toNat ≤ (0xFFFFFFFF#32).toNat ∧ (running .gp16 false).straps.tier ≠ .gp32 ∧
    65536 ≤ (65536#32).toNat := by decide

theorem witness_GetDutyAnswersCompareValue : (running .gp16 false).life = .owned := by decide
theorem witness_SetOcmWritesCompareMode : (running .adv true).life = .owned := by decide

/-- Same scale; another scale, with a period; another scale, out of range (V60). -/
theorem witness_SetCamRescalesPeriod : (running .gp16 false).life = .owned ∧
    scale .edge = scale (Cam.ofCode (running .gp16 false).tim.cms) ∧
    scale .center1 ≠ scale (Cam.ofCode (running .gp16 false).tim.cms) ∧
    periodFromFreq (running .gp16 false).straps ((running .gp16 false).straps.baseClockHz.toNat /
      (((running .gp16 false).tim.arr.toNat + 1) * scale (Cam.ofCode (running .gp16 false).tim.cms))) .center1
      = .ok 15999 ∧
    (runningAt .gp16 false 53332#32 1#2).life = .owned ∧
    scale .edge ≠ scale (Cam.ofCode (runningAt .gp16 false 53332#32 1#2).tim.cms) ∧
    periodFromFreq (runningAt .gp16 false 53332#32 1#2).straps
      ((runningAt .gp16 false 53332#32 1#2).straps.baseClockHz.toNat /
      (((runningAt .gp16 false 53332#32 1#2).tim.arr.toNat + 1)
        * scale (Cam.ofCode (runningAt .gp16 false 53332#32 1#2).tim.cms))) .edge = .error .freqRange := by decide

theorem witness_GetCamAnswersMode : (runningAt .adv false 15999#32 3#2).life = .owned := by decide

/-- Both clauses. -/
theorem witness_LlEnableOutputsWritesMoeOnAdv : (running .adv true).straps.lowlevelEn = true ∧
    (running .adv true).clkEn = true ∧ (running .adv true).straps.tier = .adv ∧
    (running .gp16 true).straps.lowlevelEn = true ∧ (running .gp16 true).clkEn = true ∧
    (running .gp16 true).straps.tier ≠ .adv := by decide

/-- A state in which every command of group 1 completes; also the released one (R56). -/
theorem witness_LlSetOcmWritesCompareMode : (running .gp16 true).straps.lowlevelEn = true ∧
    (running .gp16 true).clkEn = true := by decide
theorem witness_LlEnableChWritesChannelBit : (after (running .gp16 true) 0x0800000000#40).straps.lowlevelEn = true ∧
    (after (running .gp16 true) 0x0800000000#40).clkEn = true := by decide

/-- The widest operand of each width. -/
theorem witness_LlSetCmpWritesUnchecked : (running .adv true).straps.lowlevelEn = true ∧
    (running .adv true).clkEn = true ∧ (65535#32).toNat < 65536 ∧ (running .gp32 true).straps.lowlevelEn = true ∧
    (running .gp32 true).clkEn = true ∧ (running .gp32 true).straps.tier = .gp32 ∧
    (running .adv true).straps.tier ≠ .gp32 ∧ 65536 ≤ (65536#32).toNat := by decide

theorem witness_LlGetCmpAnswersCompareValue : (running .gp32 true).straps.lowlevelEn = true ∧
    (running .gp32 true).clkEn = true := by decide
theorem witness_LlGetMaxCmpAnswersPeriod : (running .adv true).straps.lowlevelEn = true ∧
    (running .adv true).clkEn = true := by decide
theorem witness_LlIsTimEnAnswersRunBit : (stopped .gp16 true).straps.lowlevelEn = true ∧
    (stopped .gp16 true).clkEn = true := by decide
theorem witness_LlSetTimEnWritesRunBit : (stopped .adv true).straps.lowlevelEn = true ∧
    (stopped .adv true).clkEn = true := by decide

/-- Both clauses. -/
theorem witness_LlSetCamRefusesRunningCounter : (stopped .gp16 true).straps.lowlevelEn = true ∧
    (stopped .gp16 true).clkEn = true ∧ (stopped .gp16 true).tim.cen = false ∧
    (running .gp16 true).straps.lowlevelEn = true ∧ (running .gp16 true).clkEn = true ∧
    (running .gp16 true).tim.cen = true := by decide

theorem witness_LlGetCamAnswersMode : (runningAt .gp16 true 31999#32 2#2).straps.lowlevelEn = true ∧
    (runningAt .gp16 true 31999#32 2#2).clkEn = true := by decide
theorem witness_DeadTimeCommandsStoreValues : (running .adv true).straps.lowlevelEn = true ∧
    (running .adv true).straps.tier = .adv ∧ (running .adv true).clkEn = true := by decide
theorem witness_LlEnableNchWritesComplementaryBit : (stopped .adv true).straps.lowlevelEn = true ∧
    (stopped .adv true).straps.tier = .adv ∧ (stopped .adv true).clkEn = true := by decide

/-- The four arms of `period_from_freq` at their boundaries (F14, F15, F16, F19), and the dead third arm on `GP32`. -/
theorem witness_PeriodFromFreqFollowsFormula : 0 < 1 ∧ (1#32).toNat / (1 * scale .center1) = 0 ∧
    maxp .gp16 < (65537#32).toNat / (1 * scale .edge) - 1 ∧
    (65536#32).toNat / (1 * scale .edge) ≠ 0 ∧ (65536#32).toNat / (1 * scale .edge) - 1 ≤ maxp .gp16 ∧
    (Straps.mk .gp32 false 4294967295#32).tier = .gp32 := by decide

/-- A divisor equal to the base clock, one count more, and the greatest period of a 16-bit tier. -/
theorem witness_FreqFromPeriodFollowsFormula : 31999999 ≤ maxp .gp32 ∧
    freqFromPeriod ⟨.gp32, false, 32000000#32⟩ 31999999 .edge = 1 ∧
    freqFromPeriod ⟨.gp32, false, 32000000#32⟩ 32000000 .edge = 0 ∧ 65535 ≤ maxp .gp16 ∧
    freqFromPeriod ⟨.gp16, false, 131071#32⟩ 65535 .center1 = 0 := by decide

theorem witness_SetFreqToleranceIsOneCount :
    periodFromFreq ⟨.gp16, false, 32000000#32⟩ 489 .edge = .ok 65438 ∧
    (Straps.mk .gp16 false 32000000#32).baseClockHz = 32000000#32 := by decide

/-- V58's switch, where `f0*(f0+1)` is below the base clock, the scenario's, where `n0` divides it and `s1` divides
`n0`, and one with `f0*(f0+1)` above it. -/
theorem witness_RescalingKeepsFrequencyWithinRounding :
    freqFromPeriod ⟨.gp16, false, 32000000#32⟩ 65438 .edge = 489 ∧
    periodFromFreq ⟨.gp16, false, 32000000#32⟩ 489 .center1 = .ok 32718 ∧
    freqFromPeriod ⟨.gp16, false, 32000000#32⟩ 31999 .edge = 1000 ∧
    periodFromFreq ⟨.gp16, false, 32000000#32⟩ 1000 .center1 = .ok 15999 ∧
    (31999 + 1) * scale .edge ∣ (32000000#32).toNat ∧ scale .center1 ∣ (31999 + 1) * scale .edge ∧
    freqFromPeriod ⟨.gp16, false, 32000000#32⟩ 31 .edge = 1000000 ∧
    periodFromFreq ⟨.gp16, false, 32000000#32⟩ 1000000 .center1 = .ok 15 ∧
    32000000 ≤ 1000000 * (1000000 + 1) := by decide

theorem witness_EveryStepKeepsInvariant : Inv (fed (cold .gp16 false) [0x04000003E8#40]) ∧
    ∃ t, step (fed (cold .gp16 false) [0x04000003E8#40]) = .next t :=
  ⟨⟨by decide, by decide, by decide, by decide, by intro ch; cases ch <;> decide, by decide, by decide⟩,
    ⟨nxt (fed (cold .gp16 false) [0x04000003E8#40]), step_nxt (by decide)⟩⟩

/-- A step that writes the alignment mode: `SET_CAM` on a running counter. -/
theorem witness_AlignmentModeWrittenOnlyWhileStopped :
    ∃ t, step (fed (running .gp16 false) [0x2C00000001#40]) = .next t ∧ .wr .cms 1#32 ∈ t.port :=
  ⟨nxt (fed (running .gp16 false) [0x2C00000001#40]), step_nxt (by decide), by decide⟩

theorem witness_TimerChangesOnlyThroughRegisterPort : ∃ t,
    step (fed (running .gp16 false) [0x2C00000001#40]) = .next t ∧
    ∀ rest, (fed (running .gp16 false) [0x2C00000001#40]).input ≠ .rst :: rest :=
  ⟨nxt (fed (running .gp16 false) [0x2C00000001#40]), step_nxt (by decide), (by intro r h; cases h)⟩

/-- The widest compare value that fits a 16-bit field. -/
theorem witness_RegisterWritesFitPresentFields : ∃ t, step (fed (running .adv true) [0x4C0000FFFF#40]) = .next t ∧
    t.port = [.wr (.ccr .ch1) 65535#32] :=
  ⟨nxt (fed (running .adv true) [0x4C0000FFFF#40]), step_nxt (by decide), by decide⟩

theorem witness_FieldReadsAfterWrites : (7#32).toNat < 2 ^ (Field.ocm .ch2).width .gp16 ∧
    (255#32).toNat < 2 ^ Field.dtg.width .adv ∧ Field.cms ≠ Field.cen := by decide

/-- Two states that differ in every write-only field, over a write and a read. -/
theorem witness_WriteOnlyFieldsNeverObserved :
    agreeButWriteOnly (fed (running .adv true) [0x4C00000005#40, 0x5000000000#40])
      (fed { running .adv true with tim := { (running .adv true).tim with
        ocm := PerChannel.const 1#3, cce := PerChannel.const true, moe := false, ccne := PerChannel.const true,
        dtg := 9#8, ckd := 3#2 } } [0x4C00000005#40, 0x5000000000#40]) ∧
    ∃ t, run 2 (fed (running .adv true) [0x4C00000005#40, 0x5000000000#40]) = .next t ∧ t.rsp = some ⟨.ok, 5#32⟩ :=
  ⟨rfl, ran 2 (fed (running .adv true) [0x4C00000005#40, 0x5000000000#40]), run_ran (by decide), by decide⟩

/-- The step clause on each case of the relation: equal states, a halted pair, a cold pair that a completed `INIT` makes
equal; then the run clause. -/
theorem witness_ResetPeriodNeverObserved :
    (agreeButUnseenPeriod (fed (running .gp16 false) [0x1C00000000#40]) (fed (running .gp16 false) [0x1C00000000#40]) ∧
      ∃ t, step (fed (running .gp16 false) [0x1C00000000#40]) = .next t ∧ t.rsp = some ⟨.ok, 31999#32⟩) ∧
    (agreeButUnseenPeriod (fed halted [0x1C00000000#40])
        (fed { halted with tim := { halted.tim with arr := 7#32 } } [0x1C00000000#40]) ∧
      ∃ t, step (fed halted [0x1C00000000#40]) = .next t ∧ t.rsp = some ⟨.halted, 1#32⟩) ∧
    (agreeButUnseenPeriod (fed (cold .gp16 false) [0x04000003E8#40])
        (fed { cold .gp16 false with tim := { (cold .gp16 false).tim with arr := 0#32 } } [0x04000003E8#40]) ∧
      ∃ t, step (fed (cold .gp16 false) [0x04000003E8#40]) = .next t ∧ t.rsp = some ⟨.ok, 0#32⟩) ∧
    ∃ t, run 2 { State.afterReset ⟨.gp16, false, 32000000#32⟩ with
      input := [.cmd 0x04000003E8#40, .cmd 0x1C00000000#40] } = .next t ∧ t.rsp = some ⟨.ok, 31999#32⟩ :=
  ⟨⟨.inl rfl, nxt (fed (running .gp16 false) [0x1C00000000#40]), step_nxt (by decide), by decide⟩,
    ⟨.inr ⟨rfl, .inl (by decide)⟩, nxt (fed halted [0x1C00000000#40]), step_nxt (by decide), by decide⟩,
    ⟨.inr ⟨rfl, .inr (by decide)⟩, nxt (fed (cold .gp16 false) [0x04000003E8#40]), step_nxt (by decide), by decide⟩,
    ran 2 (fed (cold .gp16 false) [0x04000003E8#40, 0x1C00000000#40]), run_ran (by decide), by decide⟩

/-- One witness a row of R108's table. -/
theorem witness_LifecycleConditionsFollowTable :
    (condition (fed (cold .gp16 false) [0x04000003E8#40]) = some .cold ∧
      step (fed (cold .gp16 false) [0x04000003E8#40]) = .next (nxt (fed (cold .gp16 false) [0x04000003E8#40]))) ∧
    (condition (fed (running .gp16 false) [0x0800000000#40]) = some .owned ∧
      step (fed (running .gp16 false) [0x0800000000#40])
        = .next (nxt (fed (running .gp16 false) [0x0800000000#40]))) ∧
    (condition (fed { running .gp16 false with life := .unowned } [0x04000003E8#40]) = some .released ∧
      step (fed { running .gp16 false with life := .unowned } [0x04000003E8#40])
        = .next (nxt (fed { running .gp16 false with life := .unowned } [0x04000003E8#40]))) ∧
    (condition (fed halted [0x04000003E8#40]) = some .halted ∧
      step (fed halted [0x04000003E8#40]) = .next (nxt (fed halted [0x04000003E8#40]))) :=
  ⟨⟨by decide, step_nxt (by decide)⟩, ⟨by decide, step_nxt (by decide)⟩, ⟨by decide, step_nxt (by decide)⟩,
    ⟨by decide, step_nxt (by decide)⟩⟩

/-- The largest duty below the resolution, read back at both levels. -/
theorem witness_DutyValueReadsBack :
    (running .gp16 true).straps.legal = true ∧ (running .gp16 true).fault = false ∧
    (running .gp16 true).life = .owned ∧ (31998#32).toNat < 65536 ∧
    (31998#32).toNat < (running .gp16 true).tim.arr.toNat ∧ (running .gp16 true).straps.lowlevelEn = true ∧
    (running .gp16 true).clkEn = true ∧
    (fed (running .gp16 true) [encode (.setDuty .ch4 31998#32), encode (.llGetCmp .ch4)]).input
      = [.cmd (encode (.setDuty .ch4 31998#32)), .cmd (encode (.llGetCmp .ch4))] := by decide

/-- One witness a way of setting the mode. -/
theorem witness_AlignmentModeReadsBack :
    (exec (.setCam .center3) (running .gp16 false) = .next (done (.setCam .center3) (running .gp16 false)) ∧
      (done (.setCam .center3) (running .gp16 false)).fault = false ∧
      (done (.setCam .center3) (running .gp16 false)).life = .owned) ∧
    (exec (.llSetCam .center2) (stopped .gp16 true) = .next (done (.llSetCam .center2) (stopped .gp16 true)) ∧
      (done (.llSetCam .center2) (stopped .gp16 true)).fault = false ∧
      (done (.llSetCam .center2) (stopped .gp16 true)).straps.lowlevelEn = true ∧
      (done (.llSetCam .center2) (stopped .gp16 true)).clkEn = true) :=
  ⟨⟨exec_done (by decide), by decide, by decide⟩, ⟨exec_done (by decide), by decide, by decide, by decide⟩⟩

end Sys2Proof.Tests
end

/-! # The proofs of the state family: the invariant, fault entry, reset, and what no response shows

First the layer of facts: the spelling of an accepted word, a step on each host event, and the moves a command's
pseudocode is made of. The statements are settled after the facts they rest on. -/

/-! ## The spelling of an accepted word -/

namespace Sys2Proof

/-- A word is determined by its fields (R42). -/
theorem cmdWord_eq_of_fields {w : CmdWord} {op : BitVec 6} {ch : BitVec 2} {arg : Word}
    (hop : (opField w).toNat = op.toNat) (hch : ch = chField w) (harg : arg = argField w) :
    cmdWord op ch arg = w := by
  rw [hch, harg, ← BitVec.eq_of_toNat_eq hop, cmdWord_fields]

theorem ifZero_eq_ok {b : Bool} {i j : Instr} : ifZero b i = .ok j ↔ b = true ∧ i = j := by
  cases b <;> simp [ifZero]

theorem formatN_eq_ok {w : CmdWord} {i j : Instr} :
    formatN w i = .ok j ↔ (0#2 = chField w ∧ 0#32 = argField w) ∧ i = j := by
  simp [formatN, ifZero_eq_ok, eq_comm (a := 0#2), eq_comm (a := 0#32)]

theorem formatC_eq_ok {w : CmdWord} {i : Channel → Instr} {j : Instr} :
    formatC w i = .ok j ↔ 0#32 = argField w ∧ i (Channel.ofCode (chField w)) = j := by
  simp [formatC, ifZero_eq_ok, eq_comm (a := 0#32)]

/-- An operand of at most 32 bits that leaves the bits above it 0 is the whole of `arg` (R43). -/
theorem setWidth_operand {a : Word} {k : Nat} (h : a.toNat < 2 ^ k) : (a.setWidth k).setWidth 32 = a := by
  apply BitVec.eq_of_toNat_eq
  simp only [BitVec.toNat_setWidth, Nat.mod_eq_of_lt h, Nat.mod_eq_of_lt a.isLt]

theorem formatA_ok {k : Nat} {w : CmdWord} {i : BitVec k → Instr} {j : Instr} (h : formatA k w i = .ok j) :
    0#2 = chField w ∧ ∃ a : BitVec k, a.setWidth 32 = argField w ∧ i a = j := by
  simp only [formatA, ifZero_eq_ok, Bool.and_eq_true, beq_iff_eq, decide_eq_true_eq] at h
  obtain ⟨⟨hch, hlt⟩, hi⟩ := h
  exact ⟨hch.symm, _, setWidth_operand hlt, hi⟩

theorem formatCA_ok {k : Nat} {w : CmdWord} {i : Channel → BitVec k → Instr} {j : Instr}
    (h : formatCA k w i = .ok j) :
    ∃ a : BitVec k, a.setWidth 32 = argField w ∧ i (Channel.ofCode (chField w)) a = j := by
  simp only [formatCA, ifZero_eq_ok, decide_eq_true_eq] at h
  exact ⟨_, setWidth_operand h.1, h.2⟩

theorem boolArg_of_bit (a : BitVec 1) : boolArg (a == 1#1) = a.setWidth 32 := by
  revert a; decide

/-- A word that decodes is the one spelling of its command (R49, D3). -/
theorem encode_of_decode {w : CmdWord} {i : Instr} (h : decode w = .ok i) : encode i = w := by
  unfold decode at h
  split at h
  -- the last arm of `decode` is no opcode of R48; in the others `hop` is the opcode
  case h_26 => cases h
  -- format `I`
  case h_1 hop =>
    cases h
    exact cmdWord_eq_of_fields hop (cam_code_ofCode _) rfl
  -- format `N`
  case h_2 hop | h_6 hop | h_7 hop | h_12 hop | h_18 hop | h_19 hop | h_22 hop =>
    obtain ⟨⟨hch, harg⟩, rfl⟩ := formatN_eq_ok.mp h
    exact cmdWord_eq_of_fields hop hch harg
  -- format `C`
  case h_3 hop | h_4 hop | h_9 hop | h_17 hop =>
    obtain ⟨harg, rfl⟩ := formatC_eq_ok.mp h
    exact cmdWord_eq_of_fields hop (channel_code_ofCode _) harg
  -- format `A` with a number
  case h_5 hop =>
    obtain ⟨hch, a, harg, rfl⟩ := formatA_ok h
    exact cmdWord_eq_of_fields hop hch ((BitVec.setWidth_eq a).symm.trans harg)
  case h_23 hop | h_24 hop =>
    obtain ⟨hch, a, harg, rfl⟩ := formatA_ok h
    exact cmdWord_eq_of_fields hop hch harg
  -- format `A2` with an alignment mode
  case h_11 hop | h_21 hop =>
    obtain ⟨hch, a, harg, rfl⟩ := formatA_ok h
    exact cmdWord_eq_of_fields hop hch ((congrArg _ (cam_code_ofCode a)).trans harg)
  -- format `A1`, a Boolean
  case h_13 hop | h_20 hop =>
    obtain ⟨hch, a, harg, rfl⟩ := formatA_ok h
    exact cmdWord_eq_of_fields hop hch ((boolArg_of_bit a).trans harg)
  -- format `CA32`
  case h_8 hop | h_16 hop =>
    obtain ⟨a, harg, rfl⟩ := formatCA_ok h
    exact cmdWord_eq_of_fields hop (channel_code_ofCode _) ((BitVec.setWidth_eq a).symm.trans harg)
  -- format `CA3`, an output-compare mode
  case h_10 hop | h_14 hop =>
    obtain ⟨a, harg, rfl⟩ := formatCA_ok h
    exact cmdWord_eq_of_fields hop (channel_code_ofCode _) ((congrArg _ (ocm_code_ofCode a)).trans harg)
  -- format `CA1`, a Boolean
  case h_15 hop | h_25 hop =>
    obtain ⟨a, harg, rfl⟩ := formatCA_ok h
    exact cmdWord_eq_of_fields hop (channel_code_ofCode _) ((boolArg_of_bit a).trans harg)

end Sys2Proof

/-! ## A step on each event of the host -/

namespace Sys2Proof.Machine

theorem step_of_legal {s : State} (h : s.straps.legal = true) : step s = engineStep s := by
  simp [step, h]

theorem engineStep_idle {s : State} (h : s.input = []) : engineStep s = .next (s.take []) := by
  simp [engineStep, h]

theorem engineStep_rst {s : State} {rest : List HostEvent} (h : s.input = .rst :: rest) :
    engineStep s = .next (systemReset (s.take rest)) := by
  simp [engineStep, h]

theorem engineStep_halted {s : State} {w : CmdWord} {rest : List HostEvent} (h : s.input = .cmd w :: rest)
    (hf : s.fault = true) : engineStep s = .next (answerHalted (s.take rest)) := by
  simp [engineStep, commandCycle, h, hf]

theorem engineStep_illegal {s : State} {w : CmdWord} {rest : List HostEvent} {e : DecodeError}
    (h : s.input = .cmd w :: rest) (hf : s.fault = false) (hd : decode w = .error e) :
    engineStep s = .next (raiseFault w .illegalCmd (s.take rest)) := by
  simp [engineStep, commandCycle, h, hf, hd]

theorem engineStep_command {s : State} {w : CmdWord} {rest : List HostEvent} {i : Instr}
    (h : s.input = .cmd w :: rest) (hf : s.fault = false) (hd : decode w = .ok i) :
    engineStep s = exec i (s.take rest) := by
  simp [engineStep, commandCycle, h, hf, hd]

end Sys2Proof.Machine

/-! ## The moves of a command

`Move` says once everything a command's pseudocode can do to the state between two register operations, with the
conditions under which it does it; `exec_moves` and `step_moves` say that a command, and so a step, is a sequence of
moves and one answer. What every step keeps then follows move by move. -/

namespace Sys2Proof.Safety

open Sys2Proof.Machine

/-- One move of a command's pseudocode. -/
inductive Move : State → State → Prop
  /-- A read only records itself on the port (R33). -/
  | read (s : State) (f : Field) : Move s { s with port := s.port ++ [.rd f (s.tim.read f)] }
  /-- A write is to a field the tier has, with a value that fits it (R25, R36), and after the lifecycle check (R51
  step 4), which has seen a clock or an owner. -/
  | write {s : State} {f : Field} {v : Word} (fits : writesFit s.straps.tier [.wr f v])
      (ready : s.clkEn = true ∨ s.life = .owned) : Move s (regWr f v s)
  /-- Steps 1 and 2 of `INIT`: the clock, then the peripheral reset (R82). -/
  | clockAndReset (s : State) : Move s (periphReset { s with clkEn := true })
  /-- Step 8 of `INIT`: ownership comes after the clock (R82). -/
  | own {s : State} (clocked : s.clkEn = true) : Move s { s with life := .owned }
  /-- `DROP` gives up ownership and nothing else (R83). -/
  | release (s : State) : Move s { s with life := .unowned }

/-- A sequence of moves. -/
abbrev Moves : State → State → Prop := Relation.ReflTransGen Move

theorem Moves.fault_eq {s t : State} (h : Moves s t) : t.fault = s.fault := by
  induction h with
  | refl => rfl
  | tail _ m ih => cases m <;> exact ih

/-- No move turns the clock off (R14). -/
theorem Moves.clkEn_of_clkEn {s t : State} (h : Moves s t) (clocked : s.clkEn = true) : t.clkEn = true := by
  induction h with
  | refl => exact clocked
  | tail _ m ih => cases m with
    | clockAndReset => rfl
    | _ => exact ih

theorem Moves.tier_eq {s t : State} (h : Moves s t) : t.straps.tier = s.straps.tier := by
  induction h with
  | refl => rfl
  | tail _ m ih => cases m <;> exact ih

/-- The state a command's pseudocode ends in, at its end or at a fault, is reached from `s` by moves. -/
inductive EndsFrom (s : State) : Result → Prop
  | done {d : Word} {u : State} (h : Moves s u) : EndsFrom s (.done d u)
  | raised {c : FaultCode} {u : State} (h : Moves s u) : EndsFrom s (.raised c u)

/-! ### The values commands write fit their fields -/

theorem fits_cen (t : Tier) (b : Bool) : writesFit t [.wr .cen (boolArg b)] :=
  (writesFit_wr ..).mpr ⟨rfl, boolArg_lt b⟩

theorem fits_cms (t : Tier) (m : Cam) : writesFit t [.wr .cms (camValue m)] :=
  (writesFit_wr ..).mpr ⟨rfl, camValue_lt m⟩

theorem fits_ocm (t : Tier) (ch : Channel) (m : Ocm) : writesFit t [.wr (.ocm ch) (ocmValue m)] :=
  (writesFit_wr ..).mpr ⟨rfl, ocmValue_lt m⟩

theorem fits_cce (t : Tier) (ch : Channel) (b : Bool) : writesFit t [.wr (.cce ch) (boolArg b)] :=
  (writesFit_wr ..).mpr ⟨rfl, boolArg_lt b⟩

theorem fits_arr {t : Tier} {p : Nat} (h : p ≤ maxp t) : writesFit t [.wr .arr (BitVec.ofNat 32 p)] := by
  refine (writesFit_wr ..).mpr ⟨rfl, ?_⟩
  rw [period_toNat h]
  exact h.trans_lt (maxp_lt_width t)

theorem fits_ccr {t : Tier} {v : Word} (ch : Channel) (h : operandFault t v = none) :
    writesFit t [.wr (.ccr ch) v] :=
  (writesFit_wr ..).mpr ⟨rfl, (operandFault_none_fits h).trans_lt (maxp_lt_width t)⟩

section Adv

variable {t : Tier} (adv : t = .adv)
include adv

theorem fits_moe (b : Bool) : writesFit t [.wr .moe (boolArg b)] :=
  (writesFit_wr ..).mpr ⟨by simp [Field.present, adv], boolArg_lt b⟩

theorem fits_ccne (ch : Channel) (b : Bool) : writesFit t [.wr (.ccne ch) (boolArg b)] :=
  (writesFit_wr ..).mpr ⟨by simp [Field.present, adv], boolArg_lt b⟩

theorem fits_dtg (v : BitVec 8) : writesFit t [.wr .dtg (v.setWidth 32)] :=
  (writesFit_wr ..).mpr ⟨by simp [Field.present, adv], (BitVec.toNat_setWidth_of_le (by decide)).trans_lt v.isLt⟩

theorem fits_ckd (v : BitVec 2) : writesFit t [.wr .ckd (v.setWidth 32)] :=
  (writesFit_wr ..).mpr ⟨by simp [Field.present, adv], (BitVec.toNat_setWidth_of_le (by decide)).trans_lt v.isLt⟩

end Adv

/-! ### The shared operations as moves -/

theorem Moves.write {s u : State} {f : Field} {v : Word} (h : Moves s u) (fits : writesFit u.straps.tier [.wr f v])
    (ready : u.clkEn = true ∨ u.life = .owned) : Moves s (regWr f v u) :=
  h.tail (.write fits ready)

theorem Moves.enableOutputs {s u : State} (h : Moves s u) (b : Bool) (ready : u.clkEn = true ∨ u.life = .owned) :
    Moves s (enableOutputs b u) := by
  obtain ⟨adv, e⟩ | ⟨-, e⟩ := enableOutputs_cases b u <;> rw [e]
  · exact h.write (fits_moe adv b) ready
  · exact h

theorem enableOutputs_clkEn (b : Bool) (s : State) : (enableOutputs b s).clkEn = s.clkEn := by
  obtain ⟨-, e⟩ | ⟨-, e⟩ := enableOutputs_cases b s <;> simp [e]

theorem endsFrom_write {s : State} {d : Word} {f : Field} {v : Word} (fits : writesFit s.straps.tier [.wr f v])
    (ready : s.clkEn = true ∨ s.life = .owned) : EndsFrom s (.done d (regWr f v s)) :=
  .done (.single (.write fits ready))

theorem EndsFrom.after {s u : State} {r : Result} (h : Moves s u) : EndsFrom u r → EndsFrom s r
  | .done h' => .done (h.trans h')
  | .raised h' => .raised (h.trans h')

/-- After a read the command goes on in a state of which it matters only that the tier is the same and that the
lifecycle check still stands. -/
theorem endsFrom_regRd {s : State} {f : Field} {k : Word → State → Result}
    (ready : s.clkEn = true ∨ s.life = .owned)
    (h : ∀ v u, u.straps.tier = s.straps.tier → (u.clkEn = true ∨ u.life = .owned) → EndsFrom u (k v u)) :
    EndsFrom s (regRd f s k) := by
  rw [regRd_eq]
  exact .after (.single (.read s f)) (h _ _ rfl ready)

/-- A command that reads one field and answers with it. -/
theorem endsFrom_read {s : State} {f : Field} : EndsFrom s (regRd f s .done) := .done (.single (.read s f))

theorem endsFrom_withCam {s : State} {b : Word} {k : Cam → Result} (h : ∀ m, EndsFrom s (k m)) :
    EndsFrom s (withCam b s k) := by
  unfold withCam
  split
  · exact h _
  · exact .raised .refl

theorem endsFrom_withPeriod {s : State} {f : Nat} {m : Cam} {k : Word → Result}
    (h : ∀ p, p ≤ maxp s.straps.tier → EndsFrom s (k (BitVec.ofNat 32 p))) : EndsFrom s (withPeriod f m s k) := by
  obtain ⟨p, -, hp, e⟩ | ⟨-, e⟩ := withPeriod_cases f m s k <;> rw [e]
  · exact h p hp
  · exact .raised .refl

theorem endsFrom_check {s : State} {c : Option FaultCode} {r : Result} (h : c = none → EndsFrom s r) :
    EndsFrom s (check c s r) := by
  cases c with
  | none => exact h rfl
  | some c => exact .raised .refl

theorem endsFrom_driver {s : State} {r : Result} (h : s.life = .owned → EndsFrom s r) :
    EndsFrom s (driverCommand s r) := by
  rw [driverCommand_eq]
  split
  · exact h ‹_›
  · exact .raised .refl

theorem endsFrom_base {s : State} {r : Result} (h : s.clkEn = true → EndsFrom s r) :
    EndsFrom s (baseCommand s r) := by
  rw [baseCommand_eq]
  split
  · exact .raised .refl
  · split
    · exact .raised .refl
    · exact h (by simpa using ‹¬ s.clkEn = false›)

theorem endsFrom_complementary {s : State} {r : Result} (h : s.straps.tier = .adv → s.clkEn = true → EndsFrom s r) :
    EndsFrom s (complementaryCommand s r) := by
  rw [complementaryCommand_eq]
  split
  · exact .raised .refl
  · rename_i available
    split
    · exact .raised .refl
    · exact h (not_not.mp (not_or.mp available).2) (by simpa using ‹¬ s.clkEn = false›)

/-! ### Every command is a sequence of moves and an answer -/

/-- Steps 7 and 8 of `INIT` (R82). -/
theorem moves_pwm1_own {s : State} (clocked : s.clkEn = true) :
    Moves s { regWr (.ocm .ch4) (ocmValue .pwm1) (regWr (.ocm .ch3) (ocmValue .pwm1)
      (regWr (.ocm .ch2) (ocmValue .pwm1) (regWr (.ocm .ch1) (ocmValue .pwm1) s))) with life := .owned } :=
  ((((Moves.write .refl (fits_ocm _ .ch1 .pwm1) (.inl clocked)).write (fits_ocm _ .ch2 .pwm1) (.inl clocked)).write
    (fits_ocm _ .ch3 .pwm1) (.inl clocked)).write (fits_ocm _ .ch4 .pwm1) (.inl clocked)).tail (.own clocked)

/-- The body of `INIT` is a sequence of moves: the clock first, so that every write finds it on (R82). -/
theorem endsFrom_init (f : Word) (mode : Cam) (s : State) : ∃ r,
    exec (.init f mode) s = conclude (encode (.init f mode)) r ∧ EndsFrom s r := by
  refine ⟨_, rfl, endsFrom_check fun _ => endsFrom_check fun _ => ?_⟩
  have moves : Moves s (regWr .cms (camValue mode) (periphReset { s with clkEn := true })) :=
    .tail (.single (.clockAndReset s)) (.write (fits_cms _ _) (.inl rfl))
  have clocked : (regWr .cms (camValue mode) (periphReset { s with clkEn := true })).clkEn = true := rfl
  dsimp only
  generalize regWr .cms (camValue mode) (periphReset { s with clkEn := true }) = u at moves clocked ⊢
  refine .after moves (endsFrom_withPeriod fun p hp => .done ?_)
  have started : Moves u (enableOutputs true (regWr .cen (boolArg true) (regWr .arr (BitVec.ofNat 32 p) u))) :=
    ((Moves.write .refl (fits_arr hp) (.inl clocked)).write (fits_cen _ true) (.inl clocked)).enableOutputs true
      (.inl clocked)
  exact started.trans (moves_pwm1_own (started.clkEn_of_clkEn clocked))

/-- The body of `SET_CAM` is a sequence of moves, with and without the rescaling (R92). -/
theorem endsFrom_setCam (mode : Cam) (s : State) : ∃ r,
    exec (.setCam mode) s = conclude (encode (.setCam mode)) r ∧ EndsFrom s r := by
  refine ⟨_, rfl, endsFrom_driver fun owned => endsFrom_regRd (.inr owned) fun b u _ ready =>
    endsFrom_withCam fun old => endsFrom_regRd ready fun p0 u _ ready => ?_⟩
  dsimp only
  refine .after ((Moves.write .refl (fits_cen _ false) ready).write (fits_cms _ mode) ready) ?_
  split
  · exact endsFrom_withPeriod fun p hp => .done ((Moves.write .refl (fits_arr hp) ready).write (fits_cen _ true) ready)
  · exact endsFrom_write (fits_cen _ true) ready

/-- Every command's meaning is the conclusion of a body that is a sequence of moves. -/
theorem exec_endsFrom (i : Instr) (s : State) : ∃ r, exec i s = conclude (encode i) r ∧ EndsFrom s r := by
  cases i with
  | init f mode => exact endsFrom_init f mode s
  | drop => exact ⟨_, rfl, endsFrom_driver fun _ => .done (.single (.release s))⟩
  | enable ch => exact ⟨_, rfl, endsFrom_driver fun owned => endsFrom_write (fits_cce _ ch true) (.inr owned)⟩
  | disable ch => exact ⟨_, rfl, endsFrom_driver fun owned => endsFrom_write (fits_cce _ ch false) (.inr owned)⟩
  | setFreq f =>
    exact ⟨_, rfl, endsFrom_driver fun owned => endsFrom_regRd (.inr owned) fun _ _ _ ready =>
      endsFrom_withCam fun _ => endsFrom_withPeriod fun _ hp => endsFrom_write (fits_arr hp) ready⟩
  | getFreq =>
    exact ⟨_, rfl, endsFrom_driver fun owned => endsFrom_regRd (.inr owned) fun _ _ _ ready =>
      endsFrom_withCam fun _ => endsFrom_regRd ready fun _ _ _ _ => .done .refl⟩
  | getMaxDuty => exact ⟨_, rfl, endsFrom_driver fun _ => endsFrom_read⟩
  | setDuty ch v =>
    refine ⟨_, rfl, endsFrom_driver fun owned => endsFrom_check fun narrow =>
      endsFrom_regRd (.inr owned) fun _ _ tier ready => ?_⟩
    split
    · exact .raised .refl
    · exact endsFrom_write (fits_ccr ch (tier ▸ narrow)) ready
  | getDuty ch => exact ⟨_, rfl, endsFrom_driver fun _ => endsFrom_read⟩
  | setOcm ch ocm => exact ⟨_, rfl, endsFrom_driver fun owned => endsFrom_write (fits_ocm _ ch ocm) (.inr owned)⟩
  | setCam mode => exact endsFrom_setCam mode s
  | getCam =>
    exact ⟨_, rfl, endsFrom_driver fun owned => endsFrom_regRd (.inr owned) fun _ _ _ _ =>
      endsFrom_withCam fun _ => .done .refl⟩
  | llEnableOutputs b =>
    exact ⟨_, rfl, endsFrom_base fun clocked => .done (Moves.enableOutputs .refl b (.inl clocked))⟩
  | llSetOcm ch ocm => exact ⟨_, rfl, endsFrom_base fun clocked => endsFrom_write (fits_ocm _ ch ocm) (.inl clocked)⟩
  | llEnableCh ch b => exact ⟨_, rfl, endsFrom_base fun clocked => endsFrom_write (fits_cce _ ch b) (.inl clocked)⟩
  | llSetCmp ch v =>
    exact ⟨_, rfl, endsFrom_base fun clocked => endsFrom_check fun narrow =>
      endsFrom_write (fits_ccr ch narrow) (.inl clocked)⟩
  | llGetCmp ch => exact ⟨_, rfl, endsFrom_base fun _ => endsFrom_read⟩
  | llGetMaxCmp => exact ⟨_, rfl, endsFrom_base fun _ => endsFrom_read⟩
  | llIsTimEn => exact ⟨_, rfl, endsFrom_base fun _ => endsFrom_read⟩
  | llSetTimEn b => exact ⟨_, rfl, endsFrom_base fun clocked => endsFrom_write (fits_cen _ b) (.inl clocked)⟩
  | llSetCam mode =>
    refine ⟨_, rfl, endsFrom_base fun clocked => endsFrom_regRd (.inl clocked) fun _ _ _ ready => ?_⟩
    split
    · exact .raised .refl
    · exact endsFrom_write (fits_cms _ mode) ready
  | llGetCam =>
    exact ⟨_, rfl, endsFrom_base fun clocked => endsFrom_regRd (.inl clocked) fun _ _ _ _ =>
      endsFrom_withCam fun _ => .done .refl⟩
  | llSetDtCkd v =>
    exact ⟨_, rfl, endsFrom_complementary fun adv clocked => endsFrom_write (fits_ckd adv v) (.inl clocked)⟩
  | llSetDtVal v =>
    exact ⟨_, rfl, endsFrom_complementary fun adv clocked => endsFrom_write (fits_dtg adv v) (.inl clocked)⟩
  | llEnableNch ch b =>
    exact ⟨_, rfl, endsFrom_complementary fun adv clocked => endsFrom_write (fits_ccne adv ch b) (.inl clocked)⟩

/-- What a command does: moves, then one answer, `OK` or the fault entry with the command's own word (R51). -/
theorem exec_moves {i : Instr} {s t : State} (h : exec i s = .next t) : ∃ u, Moves s u ∧
    ((∃ d, t = respond .ok d u) ∨ ∃ c, t = raiseFault (encode i) c u) := by
  obtain ⟨r, e, ends⟩ := exec_endsFrom i s
  rw [e] at h
  cases ends with
  | done moves => cases h; exact ⟨_, moves, .inl ⟨_, rfl⟩⟩
  | raised moves => cases h; exact ⟨_, moves, .inr ⟨_, rfl⟩⟩

/-- What a step does: system reset, or moves from the state with the event taken, ended by no answer, a response or a
fault entry. -/
theorem step_moves {s t : State} (h : step s = .next t) :
    (∃ rest, s.input = .rst :: rest ∧ t = systemReset (s.take rest)) ∨
    ∃ rest u, Moves (s.take rest) u ∧
      (t = u ∨ (∃ st d, t = respond st d u) ∨ ∃ w c, t = raiseFault w c u) := by
  obtain ⟨-, rfl⟩ | ⟨rest, hi, rfl⟩ | ⟨w, rest, -, ⟨-, rfl⟩ | ⟨-, -, rfl⟩ | ⟨-, i, -, h⟩⟩ := step_cases h
  · exact .inr ⟨_, _, .refl, .inl rfl⟩
  · exact .inl ⟨rest, hi, rfl⟩
  · exact .inr ⟨_, _, .refl, .inr (.inl ⟨_, _, rfl⟩)⟩
  · exact .inr ⟨_, _, .refl, .inr (.inr ⟨_, _, rfl⟩)⟩
  · obtain ⟨u, moves, ⟨d, rfl⟩ | ⟨c, rfl⟩⟩ := exec_moves h
    · exact .inr ⟨_, u, moves, .inr (.inl ⟨_, d, rfl⟩)⟩
    · exact .inr ⟨_, u, moves, .inr (.inr ⟨_, c, rfl⟩)⟩

/-! ### The writes of moves -/

/-- A move appends to the trace only writes that fit (R36). -/
theorem Move.writesFit_port {s t : State} (m : Move s t) (h : writesFit s.straps.tier s.port) :
    writesFit s.straps.tier t.port := by
  cases m with
  | read f => exact (writesFit_append ..).mpr ⟨h, writesFit_rd _ _ _⟩
  | write fits => exact (writesFit_append ..).mpr ⟨h, fits⟩
  | clockAndReset => exact (writesFit_append ..).mpr ⟨h, writesFit_periphReset _⟩
  | own => exact h
  | release => exact h

theorem Moves.writesFit_port {s t : State} (h : Moves s t) (h0 : writesFit s.straps.tier s.port) :
    writesFit s.straps.tier t.port := by
  induction h with
  | refl => exact h0
  | tail moves m ih => rw [← Moves.tier_eq moves] at ih ⊢; exact m.writesFit_port ih

/-! ### The invariant -/

section Write

variable {t : Tier} {tim : Timer} {f : Field} {v : Word} (fits : writesFit t [.wr f v])
include fits

/-- A write that fits leaves a period that fits (R18). -/
theorem arr_write_le (h : tim.arr.toNat ≤ maxp t) : (tim.write f v).arr.toNat ≤ maxp t := by
  have hv := ((writesFit_wr ..).mp fits).2
  cases f with
  | arr => exact Nat.le_pred_of_lt hv
  | _ => exact h

/-- A write that fits leaves compare values that fit (R19). -/
theorem ccr_write_le (h : ∀ ch, (tim.ccr.get ch).toNat ≤ maxp t) (ch : Channel) :
    ((tim.write f v).ccr.get ch).toNat ≤ maxp t := by
  have hv := ((writesFit_wr ..).mp fits).2
  cases f with
  | ccr ch' =>
    by_cases hc : ch = ch'
    · rw [hc, write_ccr, get_set_same]; exact Nat.le_pred_of_lt hv
    · rw [write_ccr, get_set_other _ _ _ _ hc]; exact h ch
  | _ => exact h ch

/-- On a GP tier a write that fits is to none of the absent fields (R25). -/
theorem absent_write_zero (gp : t ≠ .adv)
    (h : tim.moe = false ∧ tim.ccne = PerChannel.const false ∧ tim.dtg = 0#8 ∧ tim.ckd = 0#2) :
    (tim.write f v).moe = false ∧ (tim.write f v).ccne = PerChannel.const false ∧ (tim.write f v).dtg = 0#8 ∧
      (tim.write f v).ckd = 0#2 := by
  have present := ((writesFit_wr ..).mp fits).1
  cases f with
  | moe | ccne _ | dtg | ckd => exact absurd (of_decide_eq_true present) gp
  | _ => exact h

end Write

theorem atReset_arr_le (t : Tier) : (Timer.atReset t).arr.toNat ≤ maxp t := (period_toNat le_rfl).le

theorem atReset_ccr_le (t : Tier) (ch : Channel) : ((Timer.atReset t).ccr.get ch).toNat ≤ maxp t := by
  simp [Timer.atReset]

theorem inv_afterReset (p : Straps) : Inv (State.afterReset p) where
  owned_clocked := nofun
  latch_clear _ := ⟨rfl, rfl⟩
  latch_code := nofun
  arr_fits := atReset_arr_le p.tier
  ccr_fits := atReset_ccr_le p.tier
  absent_zero _ := ⟨rfl, rfl, rfl, rfl⟩
  unclocked_reset _ := rfl

/-- The invariant speaks of no port and of no host event: a state with the same engine and timer has it too. -/
theorem Inv.frame {s : State} (h : Inv s) (input : List HostEvent) (rsp : Option Response) (port : List RegOp) :
    Inv { s with input := input, rsp := rsp, port := port } :=
  { h with }

theorem Inv.raiseFault {s : State} (h : Inv s) (w : CmdWord) (c : FaultCode) : Inv (raiseFault w c s) :=
  { h with latch_clear := nofun, latch_code := fun _ => faultCode_range c }

theorem Inv.regWr {s : State} {f : Field} {v : Word} (h : Inv s) (fits : writesFit s.straps.tier [.wr f v])
    (ready : s.clkEn = true ∨ s.life = .owned) : Inv (regWr f v s) :=
  have clocked : s.clkEn = true := ready.elim id h.owned_clocked
  { h with
    arr_fits := arr_write_le fits h.arr_fits
    ccr_fits := ccr_write_le fits h.ccr_fits
    absent_zero := fun gp => absent_write_zero fits gp (h.absent_zero gp)
    unclocked_reset := fun off => absurd clocked (Bool.eq_false_iff.mp off) }

theorem Inv.move {s t : State} (h : Inv s) (m : Move s t) : Inv t := by
  cases m with
  | read f => exact h.frame ..
  | write fits ready => exact h.regWr fits ready
  | clockAndReset =>
    exact { h with
      owned_clocked := fun _ => rfl
      arr_fits := atReset_arr_le _
      ccr_fits := atReset_ccr_le _
      absent_zero := fun _ => ⟨rfl, rfl, rfl, rfl⟩
      unclocked_reset := nofun }
  | own clocked => exact { h with owned_clocked := fun _ => clocked }
  | release => exact { h with owned_clocked := nofun }

theorem Inv.moves {s t : State} (h : Inv s) (ms : Moves s t) : Inv t := by
  induction ms with
  | refl => exact h
  | tail _ m ih => exact ih.move m

end Sys2Proof.Safety

/-! ## The statements about single steps -/

namespace Sys2Proof.Proofs

open Sys2Proof.Machine Sys2Proof.Safety

/-- Settles O50: a step is system reset, or moves and an answer, and each of these keeps the invariant. -/
theorem everyStepKeepsInvariant : Obligations.EveryStepKeepsInvariant := by
  intro s t inv h
  obtain ⟨rest, -, rfl⟩ | ⟨rest, u, moves, answer⟩ := step_moves h
  · exact (inv_afterReset s.straps).frame rest none []
  · have invU : Inv u := (inv.frame rest none []).moves moves
    obtain rfl | ⟨st, d, rfl⟩ | ⟨w, c, rfl⟩ := answer
    · exact invU
    · exact invU.frame u.input (some ⟨st, d⟩) u.port
    · exact invU.raiseFault w c

/-- Settles O53: the trace of a step starts empty and grows by moves alone. -/
theorem registerWritesFitPresentFields : Obligations.RegisterWritesFitPresentFields := by
  intro s t h
  obtain ⟨rest, -, rfl⟩ | ⟨rest, u, moves, answer⟩ := step_moves h
  · exact writesFit_nil _
  · have fitsU : writesFit s.straps.tier u.port := moves.writesFit_port (writesFit_nil _)
    obtain rfl | ⟨st, d, rfl⟩ | ⟨w, c, rfl⟩ := answer <;> exact fitsU

/-- Settles O11: a word that decodes is its command's one spelling, and no move raises `FAULT`. -/
theorem raisedFaultLatchesAcceptedWord : Obligations.RaisedFaultLatchesAcceptedWord := by
  intro s t w rest hi hf h ht
  obtain ⟨hi', -⟩ | ⟨_, hi', -⟩ | ⟨w', rest', hi', hcases⟩ := step_cases h
  · simp [hi] at hi'
  · simp [hi] at hi'
  obtain ⟨rfl, rfl⟩ : w = w' ∧ rest = rest' := by simpa [hi] using hi'
  obtain ⟨halted, -⟩ | ⟨-, -, rfl⟩ | ⟨-, i, hd, hx⟩ := hcases
  · simp [hf] at halted
  · exact ⟨rfl, .illegalCmd, rfl, rfl⟩
  · obtain ⟨u, moves, ⟨d, rfl⟩ | ⟨c, rfl⟩⟩ := exec_moves hx
    · have unraised : u.fault = false := moves.fault_eq.trans hf
      simp [unraised] at ht
    · exact ⟨encode_of_decode hd, c, rfl, rfl⟩

/-- Settles O14: no move and no answer clears `FAULT` or `CLK_EN`. -/
theorem onlySystemResetClearsFaultAndClock : Obligations.OnlySystemResetClearsFaultAndClock := by
  intro s t h noReset
  obtain ⟨rest, hi, -⟩ | ⟨rest, u, moves, answer⟩ := step_moves h
  · exact absurd hi (noReset rest)
  · have faultU : s.fault = true → u.fault = true := moves.fault_eq.trans
    have clkEnU : s.clkEn = true → u.clkEn = true := moves.clkEn_of_clkEn
    obtain rfl | ⟨st, d, rfl⟩ | ⟨w, c, rfl⟩ := answer
    · exact ⟨faultU, clkEnU⟩
    · exact ⟨faultU, clkEnU⟩
    · exact ⟨fun _ => rfl, clkEnU⟩

/-- The reset value of `ARR`, `MAXP`, as the reset table writes it on each tier (R28). -/
theorem maxp_word (t : Tier) : BitVec.ofNat 32 (maxp t) = if t = .gp32 then 0xFFFFFFFF#32 else 0x0000FFFF#32 := by
  cases t <;> decide

/-- Settles O9: a reset event is `systemReset`, whose values are those of the reset table. -/
theorem systemResetGivesResetValues : Obligations.SystemResetGivesResetValues := by
  intro s rest hl hi
  rw [step_of_legal hl, engineStep_rst hi, ← maxp_word]
  rfl

/-- Settles O49: `inv_afterReset`, for all straps and for those of `State.reset`. -/
theorem resetSatisfiesInvariant : Obligations.ResetSatisfiesInvariant :=
  ⟨inv_afterReset, inv_afterReset Config.straps⟩

end Sys2Proof.Proofs

/-! ## Two runs side by side

`StepCongruence R` asks of a relation what makes two runs from related states go on together. Both statements on what no
response shows are its use: for `agreeButWriteOnly` and for `agreeButUnseenPeriod`. -/

namespace Sys2Proof.Safety

open Sys2Proof.Machine

/-- Every related pair is treated alike: the step chooses the same case of the command cycle, and each case keeps the
relation. -/
structure StepCongruence (R : State → State → Prop) : Prop where
  straps {s t : State} : R s t → t.straps = s.straps
  input {s t : State} : R s t → t.input = s.input
  fault {s t : State} : R s t → t.fault = s.fault
  rsp {s t : State} : R s t → t.rsp = s.rsp
  take {s t : State} (rest : List HostEvent) : R s t → R (s.take rest) (t.take rest)
  reset {s t : State} : R s t → R (systemReset s) (systemReset t)
  halted {s t : State} : R s t → R (answerHalted s) (answerHalted t)
  raise {s t : State} (w : CmdWord) (c : FaultCode) : R s t → R (raiseFault w c s) (raiseFault w c t)
  exec {s t u : State} {i : Instr} : R s t → s.fault = false → exec i s = .next u →
    ∃ v, exec i t = .next v ∧ R u v

namespace StepCongruence

variable {R : State → State → Prop} (cong : StepCongruence R) {s t u : State}
include cong

/-- Related states step on together. -/
theorem step (h : R s t) (hs : step s = .next u) : ∃ v, step t = .next v ∧ R u v := by
  have legal : t.straps.legal = true := by rw [cong.straps h]; exact (step_next hs).1
  rw [step_of_legal legal]
  have input := cong.input h
  have fault := cong.fault h
  obtain ⟨hi, rfl⟩ | ⟨rest, hi, rfl⟩ | ⟨w, rest, hi, ⟨hf, rfl⟩ | ⟨hf, ⟨e, hd⟩, rfl⟩ | ⟨hf, i, hd, hx⟩⟩ := step_cases hs
  · exact ⟨_, engineStep_idle (input.trans hi), cong.take _ h⟩
  · exact ⟨_, engineStep_rst (input.trans hi), cong.reset (cong.take _ h)⟩
  · exact ⟨_, engineStep_halted (input.trans hi) (fault.trans hf), cong.halted (cong.take _ h)⟩
  · exact ⟨_, engineStep_illegal (input.trans hi) (fault.trans hf) hd, cong.raise _ _ (cong.take _ h)⟩
  · rw [engineStep_command (input.trans hi) (fault.trans hf) hd]
    exact cong.exec (cong.take _ h) hf hx

/-- Related states run on together, for any number of steps. -/
theorem run (n : Nat) (h : R s t) (hs : run n s = .next u) : ∃ v, run n t = .next v ∧ R u v := by
  induction n generalizing s t with
  | zero => exact ⟨t, (run_zero t t).mpr rfl, (run_zero s u).mp hs ▸ h⟩
  | succ n ih =>
    obtain ⟨s', step_s, run_s⟩ := (run_succ n s u).mp hs
    obtain ⟨t', step_t, h'⟩ := cong.step h step_s
    obtain ⟨v, run_t, huv⟩ := ih h' run_s
    exact ⟨v, (run_succ n t v).mpr ⟨t', step_t, run_t⟩, huv⟩

end StepCongruence

/-! ### The write-only fields -/

/-- The state with the write-only fields taken from another timer block. -/
def withWriteOnlyOf (o : Timer) (s : State) : State :=
  { s with tim := { s.tim with
    ocm := o.ocm, cce := o.cce, moe := o.moe, ccne := o.ccne, dtg := o.dtg, ckd := o.ckd } }

/-- The second state of an agreeing pair is the first with other write-only fields (R26). -/
theorem agreeButWriteOnly_iff {s t : State} : agreeButWriteOnly s t ↔ ∃ o, t = withWriteOnlyOf o s := by
  constructor
  · exact fun h => ⟨t.tim, h⟩
  · rintro ⟨o, rfl⟩
    rfl

/-- An operation that treats the write-only fields of every state alike keeps agreement. -/
theorem agree_map {F : State → State} (hF : ∀ s o, agreeButWriteOnly (F s) (F (withWriteOnlyOf o s))) {s t : State}
    (h : agreeButWriteOnly s t) : agreeButWriteOnly (F s) (F t) := by
  obtain ⟨o, rfl⟩ := agreeButWriteOnly_iff.mp h
  exact hF s o

/-- Two bodies end alike: both at their end with the same data, or both at the same fault, in agreeing states. -/
inductive EndsAlike : Result → Result → Prop
  | done {d : Word} {s t : State} (h : agreeButWriteOnly s t) : EndsAlike (.done d s) (.done d t)
  | raised {c : FaultCode} {s t : State} (h : agreeButWriteOnly s t) : EndsAlike (.raised c s) (.raised c t)

/-- The fields a command reads: none of the write-only ones. -/
def readable : Field → Bool
  | .cen => true
  | .cms => true
  | .arr => true
  | .ccr _ => true
  | _ => false

section Agree

variable {s t : State} (h : agreeButWriteOnly s t)
include h

theorem agree_straps : t.straps = s.straps := by rw [h]

theorem agree_life : t.life = s.life := by rw [h]

theorem agree_clkEn : t.clkEn = s.clkEn := by rw [h]

theorem agree_read {f : Field} (hf : readable f = true) : t.tim.read f = s.tim.read f := by
  obtain ⟨o, rfl⟩ := agreeButWriteOnly_iff.mp h
  cases f with
  | cen | cms | arr | ccr _ => rfl
  | _ => cases hf

theorem agree_regWr (f : Field) (v : Word) : agreeButWriteOnly (regWr f v s) (regWr f v t) :=
  agree_map (F := regWr f v) (fun _ _ => by cases f <;> rfl) h

theorem agree_enableOutputs (b : Bool) : agreeButWriteOnly (enableOutputs b s) (enableOutputs b t) := by
  unfold enableOutputs
  rw [agree_straps h]
  split
  · exact agree_regWr h .moe (boolArg b)
  · exact h

/-- Steps 1 and 2 of `INIT` (R82). -/
theorem agree_clockAndReset :
    agreeButWriteOnly (periphReset { s with clkEn := true }) (periphReset { t with clkEn := true }) :=
  agree_map (F := fun s => periphReset { s with clkEn := true }) (fun _ _ => rfl) h

theorem agree_setLife (l : Life) : agreeButWriteOnly { s with life := l } { t with life := l } :=
  agree_map (F := fun s => { s with life := l }) (fun _ _ => rfl) h

theorem alike_write (d : Word) (f : Field) (v : Word) :
    EndsAlike (.done d (regWr f v s)) (.done d (regWr f v t)) :=
  .done (agree_regWr h f v)

theorem alike_regRd {f : Field} {k k' : Word → State → Result} (hf : readable f = true)
    (hk : ∀ v u u', agreeButWriteOnly u u' → EndsAlike (k v u) (k' v u')) : EndsAlike (regRd f s k) (regRd f t k') := by
  rw [regRd_eq, regRd_eq, agree_read h hf]
  exact hk _ _ _ (agree_map (F := fun u => { u with port := u.port ++ [.rd f (s.tim.read f)] }) (fun _ _ => rfl) h)

/-- A command that reads one field and answers with it. -/
theorem alike_read {f : Field} (hf : readable f = true) : EndsAlike (regRd f s .done) (regRd f t .done) :=
  alike_regRd h hf fun _ _ _ hu => .done hu

theorem alike_withCam {b : Word} {k k' : Cam → Result} (hk : ∀ m, EndsAlike (k m) (k' m)) :
    EndsAlike (withCam b s k) (withCam b t k') := by
  unfold withCam
  cases decodeCam b with
  | ok m => exact hk m
  | error c => exact .raised h

theorem alike_withPeriod {f : Nat} {m : Cam} {k k' : Word → Result} (hk : ∀ p, EndsAlike (k p) (k' p)) :
    EndsAlike (withPeriod f m s k) (withPeriod f m t k') := by
  unfold withPeriod
  rw [agree_straps h]
  cases periodFromFreq s.straps f m with
  | ok p => exact hk _
  | error c => exact .raised h

theorem alike_check {c c' : Option FaultCode} {r r' : Result} (hc : c' = c) (hr : EndsAlike r r') :
    EndsAlike (check c s r) (check c' t r') := by
  subst hc
  cases c' with
  | none => exact hr
  | some c => exact .raised h

theorem alike_operandCheck {v : Word} {r r' : Result} (hr : EndsAlike r r') :
    EndsAlike (check (operandFault s.straps.tier v) s r) (check (operandFault t.straps.tier v) t r') :=
  alike_check h (by rw [agree_straps h]) hr

theorem alike_driver {r r' : Result} (hr : EndsAlike r r') : EndsAlike (driverCommand s r) (driverCommand t r') :=
  alike_check h (by rw [agree_straps h]) <|
    alike_check h (by rw [driverLifecycleFault, driverLifecycleFault, agree_life h]) hr

theorem alike_base {r r' : Result} (hr : EndsAlike r r') : EndsAlike (baseCommand s r) (baseCommand t r') :=
  alike_check h (by rw [agree_straps h]) <|
    alike_check h (by rw [lowLevelLifecycleFault, lowLevelLifecycleFault, agree_clkEn h]) hr

theorem alike_complementary {r r' : Result} (hr : EndsAlike r r') :
    EndsAlike (complementaryCommand s r) (complementaryCommand t r') :=
  alike_check h (by rw [agree_straps h]) <|
    alike_check h (by rw [lowLevelLifecycleFault, lowLevelLifecycleFault, agree_clkEn h]) hr

/-- Steps 4 to 8 of `INIT` end alike: they read nothing (R82). -/
theorem alike_init (f : Word) (mode : Cam) : ∃ r r', exec (.init f mode) s = conclude (encode (.init f mode)) r ∧
    exec (.init f mode) t = conclude (encode (.init f mode)) r' ∧ EndsAlike r r' := by
  refine ⟨_, _, rfl, rfl, alike_check h (by rw [agree_straps h]) <|
    alike_check h (by rw [initLifecycleFault, initLifecycleFault, agree_life h]) ?_⟩
  have configured := agree_regWr (agree_clockAndReset h) .cms (camValue mode)
  refine alike_withPeriod configured fun p => .done (agree_setLife ?_ .owned)
  have started := agree_enableOutputs (agree_regWr (agree_regWr configured .arr p) .cen (boolArg true)) true
  exact agree_regWr (agree_regWr (agree_regWr (agree_regWr started _ _) _ _) _ _) _ _

/-- `SET_CAM` ends alike: it reads `CMS` and `ARR` alone (R92). -/
theorem alike_setCam (mode : Cam) : ∃ r r', exec (.setCam mode) s = conclude (encode (.setCam mode)) r ∧
    exec (.setCam mode) t = conclude (encode (.setCam mode)) r' ∧ EndsAlike r r' := by
  refine ⟨_, _, rfl, rfl, alike_driver h <| alike_regRd h rfl fun _ _ _ hu => alike_withCam hu fun old =>
    alike_regRd hu rfl fun p0 u u' hu => ?_⟩
  have switched := agree_regWr (agree_regWr hu .cen (boolArg false)) .cms (camValue mode)
  rw [agree_straps hu]
  dsimp only
  split
  · exact alike_withPeriod switched fun p => alike_write (agree_regWr switched .arr p) _ _ _
  · exact alike_write switched _ _ _

/-- Every command ends alike in agreeing states (R26). -/
theorem exec_alike (i : Instr) : ∃ r r', exec i s = conclude (encode i) r ∧ exec i t = conclude (encode i) r' ∧
    EndsAlike r r' := by
  cases i with
  | init f mode => exact alike_init h f mode
  | drop => exact ⟨_, _, rfl, rfl, alike_driver h <| .done (agree_setLife h .unowned)⟩
  | enable ch => exact ⟨_, _, rfl, rfl, alike_driver h <| alike_write h _ _ _⟩
  | disable ch => exact ⟨_, _, rfl, rfl, alike_driver h <| alike_write h _ _ _⟩
  | setFreq f =>
    exact ⟨_, _, rfl, rfl, alike_driver h <| alike_regRd h rfl fun _ _ _ hu => alike_withCam hu fun _ =>
      alike_withPeriod hu fun _ => alike_write hu _ _ _⟩
  | getFreq =>
    refine ⟨_, _, rfl, rfl, alike_driver h <| alike_regRd h rfl fun _ _ _ hu => alike_withCam hu fun _ =>
      alike_regRd hu rfl fun _ _ _ hu => ?_⟩
    rw [agree_straps hu]
    exact .done hu
  | getMaxDuty => exact ⟨_, _, rfl, rfl, alike_driver h <| alike_read h rfl⟩
  | setDuty ch v =>
    refine ⟨_, _, rfl, rfl, alike_driver h <| alike_operandCheck h <| alike_regRd h rfl fun _ _ _ hu => ?_⟩
    split
    · exact .raised hu
    · exact alike_write hu _ _ _
  | getDuty ch => exact ⟨_, _, rfl, rfl, alike_driver h <| alike_read h rfl⟩
  | setOcm ch ocm => exact ⟨_, _, rfl, rfl, alike_driver h <| alike_write h _ _ _⟩
  | setCam mode => exact alike_setCam h mode
  | getCam =>
    exact ⟨_, _, rfl, rfl, alike_driver h <| alike_regRd h rfl fun _ _ _ hu => alike_withCam hu fun _ => .done hu⟩
  | llEnableOutputs b => exact ⟨_, _, rfl, rfl, alike_base h <| .done (agree_enableOutputs h b)⟩
  | llSetOcm ch ocm => exact ⟨_, _, rfl, rfl, alike_base h <| alike_write h _ _ _⟩
  | llEnableCh ch b => exact ⟨_, _, rfl, rfl, alike_base h <| alike_write h _ _ _⟩
  | llSetCmp ch v => exact ⟨_, _, rfl, rfl, alike_base h <| alike_operandCheck h <| alike_write h _ _ _⟩
  | llGetCmp ch => exact ⟨_, _, rfl, rfl, alike_base h <| alike_read h rfl⟩
  | llGetMaxCmp => exact ⟨_, _, rfl, rfl, alike_base h <| alike_read h rfl⟩
  | llIsTimEn => exact ⟨_, _, rfl, rfl, alike_base h <| alike_read h rfl⟩
  | llSetTimEn b => exact ⟨_, _, rfl, rfl, alike_base h <| alike_write h _ _ _⟩
  | llSetCam mode =>
    refine ⟨_, _, rfl, rfl, alike_base h <| alike_regRd h rfl fun _ _ _ hu => ?_⟩
    split
    · exact .raised hu
    · exact alike_write hu _ _ _
  | llGetCam =>
    exact ⟨_, _, rfl, rfl, alike_base h <| alike_regRd h rfl fun _ _ _ hu => alike_withCam hu fun _ => .done hu⟩
  | llSetDtCkd v => exact ⟨_, _, rfl, rfl, alike_complementary h <| alike_write h _ _ _⟩
  | llSetDtVal v => exact ⟨_, _, rfl, rfl, alike_complementary h <| alike_write h _ _ _⟩
  | llEnableNch ch b => exact ⟨_, _, rfl, rfl, alike_complementary h <| alike_write h _ _ _⟩

end Agree

theorem writeOnly_congruence : StepCongruence agreeButWriteOnly where
  straps := agree_straps
  input h := by rw [h]
  fault h := by rw [h]
  rsp h := by rw [h]
  take rest := agree_map (F := fun s => s.take rest) fun _ _ => rfl
  reset := agree_map (F := systemReset) fun _ _ => rfl
  halted := agree_map (F := answerHalted) fun _ _ => rfl
  raise w c := agree_map (F := raiseFault w c) fun _ _ => rfl
  exec {s t u i} h _ hx := by
    obtain ⟨r, r', es, et, alike⟩ := exec_alike h i
    rw [es] at hx
    rw [et]
    cases alike with
    | done hu => cases hx; exact ⟨_, rfl, agree_map (F := respond .ok _) (fun _ _ => rfl) hu⟩
    | raised hu => cases hx; exact ⟨_, rfl, agree_map (F := raiseFault _ _) (fun _ _ => rfl) hu⟩

/-! ### The reset value of `ARR` -/

/-- The conditions under which no command can show `ARR`: halted, or neither owner nor clock (R28). -/
def periodUnseen (s : State) : Prop := s.fault = true ∨ (s.clkEn = false ∧ s.life = .unowned)

/-- The state with another period in `ARR`. -/
def withArr (a : Word) (s : State) : State := { s with tim := { s.tim with arr := a } }

/-- The second state of a related pair is the first, or the first with another period that is unseen. -/
theorem agreeButUnseenPeriod_iff {s t : State} :
    agreeButUnseenPeriod s t ↔ t = s ∨ ∃ a, t = withArr a s ∧ periodUnseen s := by
  refine or_congr_right ⟨fun ⟨ht, unseen⟩ => ⟨_, ht, unseen⟩, ?_⟩
  rintro ⟨a, rfl, unseen⟩
  exact ⟨rfl, unseen⟩

/-- An operation that neither reads nor writes `ARR`, and leaves it unseen, keeps the relation. -/
theorem unseenPeriod_map {F : State → State} {s t : State} (hF : ∀ a, F (withArr a s) = withArr a (F s))
    (hu : periodUnseen s → periodUnseen (F s)) (h : agreeButUnseenPeriod s t) :
    agreeButUnseenPeriod (F s) (F t) := by
  obtain rfl | ⟨a, rfl, unseen⟩ := agreeButUnseenPeriod_iff.mp h
  · exact .inl rfl
  · exact agreeButUnseenPeriod_iff.mpr (.inr ⟨a, hF a, hu unseen⟩)

/-- The fault a command other than `INIT` raises while there is neither owner nor clock: unavailability comes before
lifecycle (R51, R106). -/
def coldFault (g : Group) (p : Straps) : FaultCode := (availabilityFault g p).getD .lifecycle

theorem check_then_lifecycle (a : Option FaultCode) (s : State) (r : Result) :
    check a s (check (some .lifecycle) s r) = .raised (a.getD .lifecycle) s := by
  cases a <;> rfl

theorem driverCommand_cold {s : State} (r : Result) (unowned : s.life = .unowned) :
    driverCommand s r = .raised (coldFault .driver s.straps) s := by
  simp only [driverCommand, driverLifecycleFault, unowned, check_then_lifecycle, coldFault]

theorem baseCommand_cold {s : State} (r : Result) (off : s.clkEn = false) :
    baseCommand s r = .raised (coldFault .base s.straps) s := by
  simp only [baseCommand, lowLevelLifecycleFault, off, Bool.false_eq_true, if_false, check_then_lifecycle, coldFault]

theorem complementaryCommand_cold {s : State} (r : Result) (off : s.clkEn = false) :
    complementaryCommand s r = .raised (coldFault .complementary s.straps) s := by
  simp only [complementaryCommand, lowLevelLifecycleFault, off, Bool.false_eq_true, if_false, check_then_lifecycle,
    coldFault]

/-- With neither owner nor clock, every command but `INIT` only raises a fault, and which one depends on the straps
alone. -/
theorem exec_cold {i : Instr} (notInit : ∀ f m, i ≠ .init f m) : ∃ g, ∀ s : State, s.clkEn = false →
    s.life = .unowned → exec i s = .next (raiseFault (encode i) (coldFault g s.straps) s) := by
  cases i with
  | init f m => exact absurd rfl (notInit f m)
  | drop | enable _ | disable _ | setFreq _ | getFreq | getMaxDuty | setDuty _ _ | getDuty _ | setOcm _ _ | setCam _
  | getCam =>
    exact ⟨.driver, fun _ _ unowned => congrArg (conclude _) (driverCommand_cold _ unowned)⟩
  | llEnableOutputs _ | llSetOcm _ _ | llEnableCh _ _ | llSetCmp _ _ | llGetCmp _ | llGetMaxCmp | llIsTimEn
  | llSetTimEn _ | llSetCam _ | llGetCam =>
    exact ⟨.base, fun _ off _ => congrArg (conclude _) (baseCommand_cold _ off)⟩
  | llSetDtCkd _ | llSetDtVal _ | llEnableNch _ _ =>
    exact ⟨.complementary, fun _ off _ => congrArg (conclude _) (complementaryCommand_cold _ off)⟩

/-- `INIT` of an unowned timer resets the block before it looks at it (R82). -/
theorem exec_init_withArr {s : State} (f : Word) (m : Cam) (a : Word) (unowned : s.life = .unowned) :
    exec (.init f m) (withArr a s) = exec (.init f m) s := by
  have free : initLifecycleFault s = none := by rw [initLifecycleFault, unowned]
  have free' : initLifecycleFault (withArr a s) = none := free
  simp only [exec, execInit, free, free', availabilityFault, check_none]
  rfl

theorem unseenPeriod_congruence : StepCongruence agreeButUnseenPeriod where
  straps h := by obtain rfl | ⟨a, rfl, -⟩ := agreeButUnseenPeriod_iff.mp h <;> rfl
  input h := by obtain rfl | ⟨a, rfl, -⟩ := agreeButUnseenPeriod_iff.mp h <;> rfl
  fault h := by obtain rfl | ⟨a, rfl, -⟩ := agreeButUnseenPeriod_iff.mp h <;> rfl
  rsp h := by obtain rfl | ⟨a, rfl, -⟩ := agreeButUnseenPeriod_iff.mp h <;> rfl
  take rest := unseenPeriod_map (F := fun s => s.take rest) (fun _ => rfl) id
  reset h := by obtain rfl | ⟨a, rfl, -⟩ := agreeButUnseenPeriod_iff.mp h <;> exact .inl rfl
  halted := unseenPeriod_map (F := answerHalted) (fun _ => rfl) id
  raise w c := unseenPeriod_map (F := raiseFault w c) (fun _ => rfl) fun _ => .inl rfl
  exec {s t u i} h running hx := by
    obtain rfl | ⟨a, rfl, halted | ⟨off, unowned⟩⟩ := agreeButUnseenPeriod_iff.mp h
    · exact ⟨u, hx, .inl rfl⟩
    · simp [running] at halted
    · by_cases isInit : ∃ f m, i = .init f m
      · obtain ⟨f, m, rfl⟩ := isInit
        exact ⟨u, (exec_init_withArr f m a unowned).trans hx, .inl rfl⟩
      · obtain ⟨g, raises⟩ := exec_cold fun f m e => isInit ⟨f, m, e⟩
        cases (raises s off unowned).symm.trans hx
        exact ⟨_, raises (withArr a s) off unowned,
          unseenPeriod_map (F := raiseFault _ _) (fun _ => rfl) (fun _ => .inl rfl) h⟩

/-- A reset state has neither owner nor clock, so its period is unseen, whatever the stream (R28). -/
theorem afterReset_unseenPeriod (p : Straps) (a b : Word) (events : List HostEvent) :
    agreeButUnseenPeriod
      { State.afterReset p with input := events, tim := { (State.afterReset p).tim with arr := a } }
      { State.afterReset p with input := events, tim := { (State.afterReset p).tim with arr := b } } :=
  .inr ⟨rfl, .inr ⟨rfl, rfl⟩⟩

end Sys2Proof.Safety

namespace Sys2Proof.Proofs

open Sys2Proof.Machine Sys2Proof.Safety

/-- Settles O55: agreement but for the write-only fields is a step congruence, and it fixes the response. -/
theorem writeOnlyFieldsNeverObserved : Obligations.WriteOnlyFieldsNeverObserved := by
  intro n s s2 t h hrun
  obtain ⟨t2, hrun2, h'⟩ := writeOnly_congruence.run n h hrun
  exact ⟨t2, hrun2, h', writeOnly_congruence.rsp h'⟩

/-- Settles O56: agreement but for an unseen period is a step congruence, it fixes the response, and it holds between
reset states. -/
theorem resetPeriodNeverObserved : Obligations.ResetPeriodNeverObserved := by
  refine ⟨fun s s2 t h hstep => ?_, afterReset_unseenPeriod, fun p a events n t hrun => ?_⟩
  · obtain ⟨t2, hstep2, h'⟩ := unseenPeriod_congruence.step h hstep
    exact ⟨t2, hstep2, h', unseenPeriod_congruence.rsp h'⟩
  · have related := afterReset_unseenPeriod p (State.afterReset p).tim.arr a events
    obtain ⟨t2, hrun2, h'⟩ := unseenPeriod_congruence.run n related hrun
    exact ⟨t2, hrun2, unseenPeriod_congruence.rsp h'⟩

end Sys2Proof.Proofs

/-! # The proofs of the memory family: a field's read after a write, and the register port as the timer's only writer

The timer after a command's moves is the replay of its trace, because each move that changes the timer, and none other,
appends an operation to the trace. -/

/-! ## One field of the timer block -/

namespace Sys2Proof.Machine

/-- A value of one bit is the Boolean of its lowest bit (R36). -/
theorem boolArg_getLsbD {v : Word} (h : v.toNat < 2) : boolArg (v.getLsbD 0) = v := by
  obtain rfl | rfl : v = 0#32 ∨ v = 1#32 := by bv_omega
  · rfl
  · rfl

/-- A value that fits a field is read back whole: the write truncates nothing (R33, R36). -/
theorem read_write_same {t : Tier} {f : Field} {v : Word} (tim : Timer) (fits : v.toNat < 2 ^ f.width t) :
    (tim.write f v).read f = v := by
  cases f with
  | cen | moe => exact boolArg_getLsbD fits
  | cms | dtg | ckd => exact setWidth_operand fits
  | arr => rfl
  | ccr ch => exact get_set_same ..
  | ocm ch => rw [write_ocm, read_ocm, get_set_same]; exact setWidth_operand fits
  | cce ch => rw [write_cce, read_cce, get_set_same]; exact boolArg_getLsbD fits
  | ccne ch => rw [write_ccne, read_ccne, get_set_same]; exact boolArg_getLsbD fits

/-- A write leaves every field but its own, also the same field of another channel (R33). -/
theorem read_write_other {f g : Field} (tim : Timer) (v : Word) (other : g ≠ f) :
    (tim.write f v).read g = tim.read g := by
  cases f with
  | cen | cms | arr | moe | dtg | ckd => cases g <;> simp at other ⊢
  | ccr ch =>
    cases g with
    | ccr ch' => simp [get_set_other _ _ _ _ (mt (congrArg Field.ccr) other)]
    | _ => rfl
  | ocm ch =>
    cases g with
    | ocm ch' => simp [get_set_other _ _ _ _ (mt (congrArg Field.ocm) other)]
    | _ => rfl
  | cce ch =>
    cases g with
    | cce ch' => simp [get_set_other _ _ _ _ (mt (congrArg Field.cce) other)]
    | _ => rfl
  | ccne ch =>
    cases g with
    | ccne ch' => simp [get_set_other _ _ _ _ (mt (congrArg Field.ccne) other)]
    | _ => rfl

end Sys2Proof.Machine

/-! ## The timer as the replay of the trace -/

namespace Sys2Proof.Safety

open Sys2Proof.Machine

@[simp] theorem readsSeeLatest_nil (t : Tier) (tim : Timer) : readsSeeLatest t tim [] := trivial

theorem readsSeeLatest_append (t : Tier) (tim : Timer) (a b : List RegOp) :
    readsSeeLatest t tim (a ++ b) ↔ readsSeeLatest t tim a ∧ readsSeeLatest t (applyOps t tim a) b := by
  induction a generalizing tim with
  | nil => simp
  | cons op ops ih => simp [readsSeeLatest, ih, and_assoc]

theorem readsSeeLatest_singleton (t : Tier) (tim : Timer) (op : RegOp) :
    readsSeeLatest t tim [op] ↔ ∀ f v, op = .rd f v → v = tim.read f :=
  and_iff_left trivial

/-- The state's trace, replayed from the timer block `tim`, gives the state's own timer block and explains every value
read on the way. -/
def Replays (tim : Timer) (s : State) : Prop :=
  s.tim = applyOps s.straps.tier tim s.port ∧ readsSeeLatest s.straps.tier tim s.port

/-- Before its first operation a step's trace is empty (R38). -/
theorem replays_take (s : State) (rest : List HostEvent) : Replays s.tim (s.take rest) := ⟨rfl, trivial⟩

/-- One more operation of the port, done and recorded, keeps the replay. -/
theorem Replays.append {tim : Timer} {s t : State} (h : Replays tim s) (op : RegOp)
    (tier : t.straps.tier = s.straps.tier) (done : t.tim = applyOp s.straps.tier s.tim op)
    (recorded : t.port = s.port ++ [op]) (latest : ∀ f v, op = .rd f v → v = s.tim.read f) : Replays tim t := by
  obtain ⟨timer, reads⟩ := h
  rw [Replays, tier, recorded, done, applyOps_append, readsSeeLatest_append, ← timer, readsSeeLatest_singleton]
  exact ⟨rfl, reads, latest⟩

/-- A move is one operation of the port, done and recorded, or touches neither the timer nor the trace. -/
theorem Replays.move {tim : Timer} {s t : State} (h : Replays tim s) (m : Move s t) : Replays tim t := by
  cases m with
  | read f => exact h.append (.rd f (s.tim.read f)) rfl rfl rfl fun _ _ e => by cases e; rfl
  | @write f v => exact h.append (.wr f v) rfl rfl rfl nofun
  | clockAndReset => exact h.append .periphReset rfl rfl rfl nofun
  | own => exact h
  | release => exact h

theorem Replays.moves {tim : Timer} {s t : State} (h : Replays tim s) (ms : Moves s t) : Replays tim t := by
  induction ms with
  | refl => exact h
  | tail _ m ih => exact ih.move m

end Sys2Proof.Safety

namespace Sys2Proof.Proofs

open Sys2Proof.Machine Sys2Proof.Safety

/-- Settles O52: the trace starts empty, each move keeps the replay, and an answer touches neither timer nor trace. -/
theorem timerChangesOnlyThroughRegisterPort : Obligations.TimerChangesOnlyThroughRegisterPort := by
  intro s t h noReset
  obtain ⟨rest, hi, -⟩ | ⟨rest, u, moves, answer⟩ := step_moves h
  · exact absurd hi (noReset rest)
  · have tier : u.straps.tier = s.straps.tier := moves.tier_eq
    have replays : Replays s.tim u := (replays_take s rest).moves moves
    rw [Replays, tier] at replays
    obtain rfl | ⟨st, d, rfl⟩ | ⟨w, c, rfl⟩ := answer <;> exact replays

/-- Settles O54: the two rules of a field's write. -/
theorem fieldReadsAfterWrites : Obligations.FieldReadsAfterWrites :=
  fun _ tim _ v fits => ⟨read_write_same tim fits, fun _ other => read_write_other tim v other⟩

end Sys2Proof.Proofs

/-! # The proofs of the encoding family: the round trip, the opcode map, the assembler, and the command cycle's checks

The opcode map is tied to the decoder row by row: a row fixes `op` and asks for zeros under its two other masks, and
each format of the decoder asks for the same zeros. -/

/-! ## Decoding a built word -/

namespace Sys2Proof

theorem formatI_cmdWord (op : BitVec 6) (mode : Cam) (f : Word) (i : Word → Cam → Instr) :
    formatI (cmdWord op mode.code f) i = .ok (i f mode) := by
  rw [formatI, argField_cmdWord, chField_cmdWord, cam_ofCode_code]

theorem formatN_cmdWord (op : BitVec 6) (i : Instr) : formatN (cmdWord op 0#2 0#32) i = .ok i :=
  formatN_eq_ok.mpr (by simp)

theorem formatC_cmdWord (op : BitVec 6) (ch : Channel) (i : Channel → Instr) :
    formatC (cmdWord op ch.code 0#32) i = .ok (i ch) :=
  formatC_eq_ok.mpr (by simp)

/-- An operand of at most 32 bits, extended to `arg`, leaves the bits above it 0 and is read back whole (R43). -/
theorem operand_setWidth {k : Nat} (hk : k ≤ 32) (a : BitVec k) :
    (a.setWidth 32).toNat < 2 ^ k ∧ (a.setWidth 32).setWidth k = a := by
  have value : (a.setWidth 32).toNat = a.toNat := BitVec.toNat_setWidth_of_le hk
  refine ⟨value ▸ a.isLt, BitVec.eq_of_toNat_eq ?_⟩
  rw [BitVec.toNat_setWidth, value, Nat.mod_eq_of_lt a.isLt]

section Operand

variable {k : Nat} (hk : k ≤ 32) (op : BitVec 6) (ch : Channel) (a : BitVec k)
include hk

theorem formatA_cmdWord (i : BitVec k → Instr) : formatA k (cmdWord op 0#2 (a.setWidth 32)) i = .ok (i a) := by
  obtain ⟨fits, back⟩ := operand_setWidth hk a
  rw [formatA, ifZero_eq_ok, chField_cmdWord, argField_cmdWord, back, decide_eq_true fits]
  exact ⟨rfl, rfl⟩

theorem formatCA_cmdWord (i : Channel → BitVec k → Instr) :
    formatCA k (cmdWord op ch.code (a.setWidth 32)) i = .ok (i ch a) := by
  obtain ⟨fits, back⟩ := operand_setWidth hk a
  rw [formatCA, ifZero_eq_ok, chField_cmdWord, argField_cmdWord, channel_ofCode_code, back, decide_eq_true fits]
  exact ⟨rfl, rfl⟩

end Operand

/-- A Boolean operand is its one bit, extended (R47 (a)). -/
theorem boolArg_eq_setWidth (b : Bool) : boolArg b = (BitVec.ofBool b).setWidth 32 := by cases b <;> rfl

theorem ofBool_beq_one (b : Bool) : (BitVec.ofBool b == 1#1) = b := by cases b <;> rfl

/-- Each command's word is read by the format it is built in, and its operands' codes are read back. -/
theorem decode_encode (i : Instr) : decode (encode i) = .ok i := by
  cases i
  all_goals rw [encode, decode, opField_cmdWord]
  -- format `I`
  case init f mode =>
    exact formatI_cmdWord _ mode f _
  -- format `N`
  case drop | getFreq | getMaxDuty | getCam | llGetMaxCmp | llIsTimEn | llGetCam =>
    exact formatN_cmdWord _ _
  -- format `C`
  case enable ch | disable ch | getDuty ch | llGetCmp ch =>
    exact formatC_cmdWord _ ch _
  -- format `A` with a number
  case setFreq a | llSetDtCkd a | llSetDtVal a =>
    exact formatA_cmdWord (by decide) _ a _
  -- format `A2` with an alignment mode
  case setCam mode | llSetCam mode =>
    exact (formatA_cmdWord (by decide) _ mode.code _).trans (by rw [cam_ofCode_code])
  -- format `A1`, a Boolean
  case llEnableOutputs b | llSetTimEn b =>
    rw [boolArg_eq_setWidth]
    exact (formatA_cmdWord (by decide) _ (BitVec.ofBool b) _).trans (by rw [ofBool_beq_one])
  -- format `CA32`
  case setDuty ch v | llSetCmp ch v =>
    exact formatCA_cmdWord (by decide) _ ch v _
  -- format `CA3`, an output-compare mode
  case setOcm ch ocm | llSetOcm ch ocm =>
    exact (formatCA_cmdWord (by decide) _ ch ocm.code _).trans (by rw [ocm_ofCode_code])
  -- format `CA1`, a Boolean
  case llEnableCh ch b | llEnableNch ch b =>
    rw [boolArg_eq_setWidth]
    exact (formatCA_cmdWord (by decide) _ ch (BitVec.ofBool b) _).trans (by rw [ofBool_beq_one])

/-! ## The opcode map -/

/-- Masking works field by field (R42). -/
theorem cmdWord_and (op op' : BitVec 6) (ch ch' : BitVec 2) (arg arg' : Word) :
    cmdWord op ch arg &&& cmdWord op' ch' arg' = cmdWord (op &&& op') (ch &&& ch') (arg &&& arg') := by
  apply BitVec.eq_of_getLsbD_eq
  intro i _
  simp only [BitVec.getLsbD_and, cmdWord_bit]
  split
  · rfl
  · split <;> rfl

/-- Two built words are equal exactly when their fields are (R42). -/
theorem cmdWord_inj {op op' : BitVec 6} {ch ch' : BitVec 2} {arg arg' : Word} :
    cmdWord op ch arg = cmdWord op' ch' arg' ↔ op = op' ∧ ch = ch' ∧ arg = arg' := by
  constructor
  · intro h
    have fields := congrArg (fun w => (opField w, chField w, argField w)) h
    simpa using fields
  · rintro ⟨rfl, rfl, rfl⟩
    rfl

/-- The bits of `ch` and of `arg` under two masks are zero in a word. -/
def reservedZero (ch : BitVec 2) (arg : Word) (w : CmdWord) : Prop :=
  chField w &&& ch = 0#2 ∧ argField w &&& arg = 0#32

/-- Every row of the map fixes all of `op` and, of the other bits, only asks some to be zero (R43, R48). -/
theorem row_fields {r : OpcodeRow} (hr : r ∈ opcodeMap) :
    opField r.mask = BitVec.allOnes 6 ∧ chField r.value = 0#2 ∧ argField r.value = 0#32 := by
  revert r; decide

theorem hits_iff {r : OpcodeRow} (hr : r ∈ opcodeMap) (w : CmdWord) :
    r.hits w = true ↔ opField w = opField r.value ∧ reservedZero (chField r.mask) (argField r.mask) w := by
  obtain ⟨hop, hch, harg⟩ := row_fields hr
  have masked : w &&& r.mask =
      cmdWord (opField w) (chField w &&& chField r.mask) (argField w &&& argField r.mask) := by
    rw [← BitVec.and_allOnes (x := opField w), ← hop, ← cmdWord_and, cmdWord_fields, cmdWord_fields]
  have value : cmdWord (opField r.value) 0#2 0#32 = r.value := by rw [← hch, ← harg, cmdWord_fields]
  calc r.hits w = true
    _ ↔ w &&& r.mask = r.value := beq_iff_eq
    _ ↔ cmdWord (opField w) (chField w &&& chField r.mask) (argField w &&& argField r.mask)
          = cmdWord (opField r.value) 0#2 0#32 := by rw [masked, value]
    _ ↔ _ := cmdWord_inj

/-- No two rows of the map have the same opcode (R48). -/
theorem row_eq_of_opField {r r' : OpcodeRow} (hr : r ∈ opcodeMap) (hr' : r' ∈ opcodeMap)
    (h : opField r.value = opField r'.value) : r = r' := by
  have distinct : (opcodeMap.map fun r => opField r.value).Nodup := by decide
  exact List.inj_on_of_nodup_map distinct hr hr' h

/-- Every command's opcode is that of a row (R48). -/
theorem exists_row_opField (i : Instr) : ∃ r ∈ opcodeMap, opField (encode i) = opField r.value := by
  cases i <;> (simp only [encode, opField_cmdWord]; decide)

/-- `arg[31:k] = 0` as a mask says it (R43, R48). -/
theorem toNat_lt_iff_and (k : Nat) (a : Word) : a.toNat < 2 ^ k ↔ a &&& BitVec.allOnes 32 <<< k = 0#32 := by
  have cleared : (a &&& BitVec.allOnes 32 <<< k).toNat = a.toNat / 2 ^ k * 2 ^ k := by
    rw [← BitVec.shiftLeft_ushiftRight, BitVec.toNat_shiftLeft, BitVec.toNat_ushiftRight, Nat.shiftLeft_eq,
      Nat.shiftRight_eq_div_pow]
    exact Nat.mod_eq_of_lt ((Nat.div_mul_le_self ..).trans_lt a.isLt)
  rw [← BitVec.toNat_inj, cleared]
  simp [Nat.div_eq_zero_iff]

section Formats

variable (w : CmdWord)

theorem formatI_decodes (i : Word → Cam → Instr) : (∃ j, formatI w i = .ok j) ↔ reservedZero 0#2 0#32 w := by
  simp [formatI, reservedZero]

theorem formatN_decodes (i : Instr) :
    (∃ j, formatN w i = .ok j) ↔ reservedZero (BitVec.allOnes 2) (BitVec.allOnes 32) w := by
  rw [reservedZero, BitVec.and_allOnes, BitVec.and_allOnes]
  simp [formatN, ifZero_eq_ok]

theorem formatC_decodes (i : Channel → Instr) :
    (∃ j, formatC w i = .ok j) ↔ reservedZero 0#2 (BitVec.allOnes 32) w := by
  rw [reservedZero, BitVec.and_allOnes]
  simp [formatC, ifZero_eq_ok]

theorem formatA_decodes (k : Nat) (i : BitVec k → Instr) :
    (∃ j, formatA k w i = .ok j) ↔ reservedZero (BitVec.allOnes 2) (BitVec.allOnes 32 <<< k) w := by
  rw [reservedZero, BitVec.and_allOnes, ← toNat_lt_iff_and]
  simp [formatA, ifZero_eq_ok]

theorem formatCA_decodes (k : Nat) (i : Channel → BitVec k → Instr) :
    (∃ j, formatCA k w i = .ok j) ↔ reservedZero 0#2 (BitVec.allOnes 32 <<< k) w := by
  rw [reservedZero, ← toNat_lt_iff_and]
  simp [formatCA, ifZero_eq_ok]

end Formats

/-- A word with a row's opcode spells a command exactly when the bits that the row reserves are zero: each row's masks
are those of its format, which stand below in the order of the map (R43, R48). -/
theorem decodes_iff_reservedZero {r : OpcodeRow} (hr : r ∈ opcodeMap) {w : CmdWord}
    (op : opField w = opField r.value) :
    (∃ i, decode w = .ok i) ↔ reservedZero (chField r.mask) (argField r.mask) w := by
  rw [decode, op]
  simp only [opcodeMap, List.cons_append, List.nil_append, List.mem_cons, List.not_mem_nil, or_false] at hr
  obtain rfl | rfl | rfl | rfl | rfl | rfl | rfl | rfl | rfl | rfl | rfl | rfl |
    rfl | rfl | rfl | rfl | rfl | rfl | rfl | rfl | rfl | rfl | rfl | rfl | rfl := hr
  exacts [
    formatI_decodes w _, formatN_decodes w _, formatC_decodes w _, formatC_decodes w _, formatA_decodes w 32 _,
    formatN_decodes w _, formatN_decodes w _, formatCA_decodes w 32 _, formatC_decodes w _, formatCA_decodes w 3 _,
    formatA_decodes w 2 _, formatN_decodes w _,
    formatA_decodes w 1 _, formatCA_decodes w 3 _, formatCA_decodes w 1 _, formatCA_decodes w 32 _,
    formatC_decodes w _, formatN_decodes w _, formatN_decodes w _, formatA_decodes w 1 _, formatA_decodes w 2 _,
    formatN_decodes w _,
    formatA_decodes w 2 _, formatA_decodes w 8 _, formatCA_decodes w 1 _]

/-- A word spells a command exactly when it matches a row (R49, R54). -/
theorem decodes_iff_hits (w : CmdWord) : (∃ i, decode w = .ok i) ↔ ∃ r ∈ opcodeMap, r.hits w = true := by
  constructor
  · rintro ⟨i, hd⟩
    obtain ⟨r, hr, op⟩ := exists_row_opField i
    rw [encode_of_decode hd] at op
    exact ⟨r, hr, (hits_iff hr w).mpr ⟨op, (decodes_iff_reservedZero hr op).mp ⟨i, hd⟩⟩⟩
  · rintro ⟨r, hr, hit⟩
    obtain ⟨op, zeros⟩ := (hits_iff hr w).mp hit
    exact (decodes_iff_reservedZero hr op).mpr zeros

/-- A word that matches no row spells no command (R49). -/
theorem decode_error_of_no_row {w : CmdWord} (h : ∀ r ∈ opcodeMap, r.hits w = false) : ∃ e, decode w = .error e := by
  cases hd : decode w with
  | error e => exact ⟨e, rfl⟩
  | ok i =>
    obtain ⟨r, hr, hit⟩ := (decodes_iff_hits w).mp ⟨i, hd⟩
    exact absurd hit (Bool.eq_false_iff.mp (h r hr))

end Sys2Proof

/-! ## The checks of a command's group -/

namespace Sys2Proof.Machine

/-- Every group-0 command but `INIT` begins with the common conditions of the group (R81). -/
theorem exec_driver {i : Instr} (group : i.group = .driver) (notInit : ∀ f m, i ≠ .init f m) (s : State) :
    ∃ r, exec i s = conclude (encode i) (driverCommand s r) := by
  cases i with
  | init f m => exact absurd rfl (notInit f m)
  | drop | enable _ | disable _ | setFreq _ | getFreq | getMaxDuty | setDuty _ _ | getDuty _ | setOcm _ _ | setCam _
  | getCam => exact ⟨_, rfl⟩
  | _ => simp [Instr.group, encode] at group

/-- Every group-1 command begins with the common conditions of the group (R56). -/
theorem exec_base {i : Instr} (group : i.group = .base) (s : State) :
    ∃ r, exec i s = conclude (encode i) (baseCommand s r) := by
  cases i with
  | llEnableOutputs _ | llSetOcm _ _ | llEnableCh _ _ | llSetCmp _ _ | llGetCmp _ | llGetMaxCmp | llIsTimEn
  | llSetTimEn _ | llSetCam _ | llGetCam => exact ⟨_, rfl⟩
  | _ => simp [Instr.group, encode] at group

/-- Every group-2 command begins with the common conditions of the group (R67). -/
theorem exec_complementary {i : Instr} (group : i.group = .complementary) (s : State) :
    ∃ r, exec i s = conclude (encode i) (complementaryCommand s r) := by
  cases i with
  | llSetDtCkd _ | llSetDtVal _ | llEnableNch _ _ => exact ⟨_, rfl⟩
  | _ => simp [Instr.group, encode] at group

/-- `INIT` needs an unowned timer (R81). -/
theorem exec_init_owned {s : State} (f : Word) (m : Cam) (owned : s.life = .owned) :
    exec (.init f m) s = .next (raiseFault (encode (.init f m)) .lifecycle s) := by
  simp only [exec, execInit, availabilityFault, initLifecycleFault, owned, check_none, check_some, conclude_raised]

/-- On a 16-bit tier the operand check refuses a compare value wider than 16 bits (R47 (c), R51 step 5). -/
theorem operandFault_wide {t : Tier} {v : Word} (narrow : t ≠ .gp32) (wide : 65536 ≤ v.toNat) :
    operandFault t v = some .illegalCmd := by
  refine (operandFault_cases t v).resolve_left fun passes => ?_
  have fits := (operandFault_none_iff t .ch1 v).mp passes
  simp [Instr.wellFormed, narrow] at fits
  omega

/-- `SET_DUTY` checks the operand width after the ownership (R51 step 5). -/
theorem exec_setDuty_wide {s : State} {v : Word} (ch : Channel) (owned : s.life = .owned)
    (narrow : s.straps.tier ≠ .gp32) (wide : 65536 ≤ v.toNat) :
    exec (.setDuty ch v) s = .next (raiseFault (encode (.setDuty ch v)) .illegalCmd s) := by
  simp only [exec, execSetDuty, driverCommand_eq, owned, if_true, operandFault_wide narrow wide, check_some,
    conclude_raised]

/-- `LL_SET_CMP` checks the operand width after availability and lifecycle (R51 step 5). -/
theorem exec_llSetCmp_wide {s : State} {v : Word} (ch : Channel) (lowlevel : s.straps.lowlevelEn = true)
    (clocked : s.clkEn = true) (narrow : s.straps.tier ≠ .gp32) (wide : 65536 ≤ v.toNat) :
    exec (.llSetCmp ch v) s = .next (raiseFault (encode (.llSetCmp ch v)) .illegalCmd s) := by
  simp only [exec, execLlSetCmp, baseCommand_eq, lowlevel, clocked, Bool.true_eq_false, if_false,
    operandFault_wide narrow wide, check_some, conclude_raised]

end Sys2Proof.Machine

/-! ## A command's one answer -/

namespace Sys2Proof.Safety

open Sys2Proof.Machine

/-- No move changes the straps, the stream or the fault latch. -/
theorem Moves.frame {s t : State} (h : Moves s t) : t.straps = s.straps ∧ t.input = s.input ∧
    t.fault = s.fault ∧ t.fcode = s.fcode ∧ t.fword = s.fword := by
  induction h with
  | refl => exact ⟨rfl, rfl, rfl, rfl, rfl⟩
  | tail _ m ih => cases m <;> exact ih

/-- A body whose `OK` answer, if it comes to one, carries no data. -/
def AnswersZero (r : Result) : Prop := ∀ d u, r = .done d u → d = 0#32

namespace AnswersZero

theorem done (u : State) : AnswersZero (.done 0#32 u) := fun _ _ h => by cases h; rfl

theorem raised (c : FaultCode) (u : State) : AnswersZero (.raised c u) := fun _ _ h => by cases h

theorem check {c : Option FaultCode} {s : State} {r : Result} (h : AnswersZero r) : AnswersZero (check c s r) := by
  cases c with
  | none => exact h
  | some c => exact raised c s

theorem regRd {f : Field} {s : State} {k : Word → State → Result} (h : ∀ v u, AnswersZero (k v u)) :
    AnswersZero (regRd f s k) := h _ _

theorem withCam {b : Word} {s : State} {k : Cam → Result} (h : ∀ m, AnswersZero (k m)) :
    AnswersZero (withCam b s k) := by
  unfold Machine.withCam
  split
  · exact h _
  · exact raised _ s

theorem withPeriod {f : Nat} {m : Cam} {s : State} {k : Word → Result} (h : ∀ p, AnswersZero (k p)) :
    AnswersZero (withPeriod f m s k) := by
  obtain ⟨p, -, -, e⟩ | ⟨-, e⟩ := withPeriod_cases f m s k <;> rw [e]
  · exact h _
  · exact raised _ s

end AnswersZero

/-- Only the eight reading commands answer with data (R50). -/
theorem exec_answersZero {i : Instr} (notRead : reads i = false) (s : State) :
    ∃ r, exec i s = conclude (encode i) r ∧ AnswersZero r := by
  cases i with
  | getFreq | getMaxDuty | getDuty _ | getCam | llGetCmp _ | llGetMaxCmp | llIsTimEn | llGetCam => cases notRead
  | init f mode => exact ⟨_, rfl, .check <| .check <| .withPeriod fun _ => .done _⟩
  | setFreq f =>
    exact ⟨_, rfl, .check <| .check <| .regRd fun _ _ => .withCam fun _ => .withPeriod fun _ => .done _⟩
  | setDuty ch v =>
    refine ⟨_, rfl, .check <| .check <| .check <| .regRd fun _ _ => ?_⟩
    split
    · exact .raised _ _
    · exact .done _
  | setCam mode =>
    refine ⟨_, rfl, .check <| .check <| .regRd fun _ _ => .withCam fun _ => .regRd fun _ _ => ?_⟩
    dsimp only
    split
    · exact .withPeriod fun _ => .done _
    · exact .done _
  | llSetCmp ch v => exact ⟨_, rfl, .check <| .check <| .check <| .done _⟩
  | llSetCam mode =>
    refine ⟨_, rfl, .check <| .check <| .regRd fun _ _ => ?_⟩
    split
    · exact .raised _ _
    · exact .done _
  | drop | enable _ | disable _ | setOcm _ _ | llEnableOutputs _ | llSetOcm _ _ | llEnableCh _ _ | llSetTimEn _
  | llSetDtCkd _ | llSetDtVal _ | llEnableNch _ _ => exact ⟨_, rfl, .check <| .check <| .done _⟩

theorem exec_ok_zero {i : Instr} {s u : State} {d : Word} (notRead : reads i = false)
    (h : exec i s = .next (respond .ok d u)) : d = 0#32 := by
  obtain ⟨r, e, zero⟩ := exec_answersZero notRead s
  obtain ⟨d', u', hr, same⟩ | ⟨c, u', -, same⟩ := conclude_next (e.symm.trans h)
  · have answer : some (Response.mk .ok d) = some ⟨.ok, d'⟩ := congrArg State.rsp same
    cases answer
    exact zero d u' hr
  · have answer : some (Response.mk .ok d) = some ⟨.fault, c.code.setWidth 32⟩ := congrArg State.rsp same
    cases answer

end Sys2Proof.Safety

/-! ## `INIT` without a mode -/

namespace Sys2Proof.Machine

/-- `INIT f` is `INIT f, EDGE`, also where `f` is no number (R53). -/
theorem asmCommand_init_default (a : List Char) :
    asmCommand "INIT".toList [a] = asmCommand "INIT".toList [a, "EDGE".toList] := by
  change (asmBits 32 a).map asmInitDefault
    = (asmBits 32 a).bind fun f => (asmCam "EDGE".toList).map fun c => .init f c
  cases asmBits 32 a <;> rfl

end Sys2Proof.Machine

/-! ## The statements -/

namespace Sys2Proof.Proofs

open Sys2Proof.Machine Sys2Proof.Safety

/-- Settles O1: each command's word is read by the format it is built in. -/
theorem decodeOfEncodeReturnsCommand : Obligations.DecodeOfEncodeReturnsCommand := decode_encode

/-- Settles O2: a word that decodes is determined by its fields, and the command's word has the same. -/
theorem encodeOfDecodeReturnsWord : Obligations.EncodeOfDecodeReturnsWord := fun _ _ => encode_of_decode

/-- Settles O3: a row's masks are those of its format, and two rows that match one word have its opcode. -/
theorem wordSpellsCommandIffOneRowMatches : Obligations.WordSpellsCommandIffOneRowMatches := by
  refine fun w => ⟨decodes_iff_hits w, fun r hr r' hr' hit hit' => ?_⟩
  obtain ⟨op, -⟩ := (hits_iff hr w).mp hit
  obtain ⟨op', -⟩ := (hits_iff hr' w).mp hit'
  exact row_eq_of_opField hr hr' (op.symm.trans op')

/-- Settles O7: a word that matches no row does not decode, and the command cycle faults at step 2. -/
theorem illegalWordRaisesIllegalCommand : Obligations.IllegalWordRaisesIllegalCommand := by
  intro s w rest legal unhalted input noRow
  obtain ⟨e, illegal⟩ := decode_error_of_no_row noRow
  rw [step_of_legal legal, engineStep_illegal input unhalted illegal]
  rfl

/-- Settles O16: the common conditions of group 0, those of `INIT`, and the operand check after them. -/
theorem driverCommandsCheckOwnership : Obligations.DriverCommandsCheckOwnership := by
  intro i s group
  refine ⟨?init, fun notInit unowned => ?other, ?wide⟩
  case init =>
    rintro ⟨f, m, rfl⟩ owned
    exact exec_init_owned f m owned
  case other =>
    obtain ⟨r, e⟩ := exec_driver group notInit s
    simp [e, driverCommand_eq, unowned]
  case wide =>
    rintro ch v rfl owned narrow wide
    exact exec_setDuty_wide ch owned narrow wide

/-- Settles O17: the common conditions of group 1 in their order, and the operand check after them. -/
theorem baseCommandsCheckAccess : Obligations.BaseCommandsCheckAccess := by
  intro i s group
  obtain ⟨r, e⟩ := exec_base group s
  refine ⟨fun normalLevel => ?unavailable, fun lowlevel off => ?lifecycle, ?wide⟩
  case unavailable => simp [e, baseCommand_eq, normalLevel]
  case lifecycle => simp [e, baseCommand_eq, lowlevel, off]
  case wide =>
    rintro ch v rfl lowlevel clocked narrow wide
    exact exec_llSetCmp_wide ch lowlevel clocked narrow wide

/-- Settles O18: the common conditions of group 2 in their order. -/
theorem complementaryCommandsCheckAccess : Obligations.ComplementaryCommandsCheckAccess := by
  intro i s group
  obtain ⟨r, e⟩ := exec_complementary group s
  refine ⟨fun normalLevel => ?optIn, fun gp => ?tier, fun lowlevel adv off => ?lifecycle⟩
  case optIn => simp [e, complementaryCommand_eq, normalLevel]
  case tier => simp [e, complementaryCommand_eq, gp]
  case lifecycle => simp [e, complementaryCommand_eq, lowlevel, adv, off]

/-- Settles O19: a command is moves, which keep straps, stream and latch, and then one answer. -/
theorem everyCommandAnswersOnce : Obligations.EveryCommandAnswersOnce := by
  intro i s
  obtain ⟨r, e, ends⟩ := exec_endsFrom i s
  cases ends with
  | @done d u moves =>
    obtain ⟨straps, input, fault, fcode, fword⟩ := moves.frame
    exact ⟨respond .ok d u, e, straps, input,
      .inl ⟨fault, fcode, fword, d, rfl, fun notRead => exec_ok_zero notRead e⟩⟩
  | @raised c u moves =>
    obtain ⟨straps, input, -⟩ := moves.frame
    exact ⟨raiseFault (encode i) c u, e, straps, input, .inr ⟨rfl, rfl, c, rfl, rfl⟩⟩

/-- Settles O5: the fixed texts by evaluation, and the omitted mode for every operand text. -/
theorem assemblerLinesSpellSpecWords : Obligations.AssemblerLinesSpellSpecWords :=
  ⟨by decide, by decide, by decide, asmCommand_init_default⟩

/-- Settles O6: the command cycle on a word that decodes, by the rules of a step. -/
theorem stepRunsDecodedCommand : Obligations.StepRunsDecodedCommand := by
  intro s w rest i legal unhalted input decoded
  rw [step_of_legal legal, engineStep_command input unhalted decoded]
  rfl

end Sys2Proof.Proofs

/-! # The proofs of the capability family: the base capability commands, and what was set reads back

An accepted command is its body, and a body of this family is one access to the register port, or a check and then one.
So the facts come first: the values commands write as their fields hold them, the checks that pass, and one access. -/

/-! ## The values commands write, as their fields hold them -/

namespace Sys2Proof.Machine

theorem boolArg_getLsbD_zero (b : Bool) : (boolArg b).getLsbD 0 = b := boolArg_bit b

@[simp] theorem boolArg_eq_one (b : Bool) : boolArg b = 1#32 ↔ b = true := by cases b <;> decide

@[simp] theorem camValue_bits (m : Cam) : (camValue m).setWidth 2 = m.code := (operand_setWidth (by decide) _).2

@[simp] theorem ocmValue_bits (m : Ocm) : (ocmValue m).setWidth 3 = m.code := (operand_setWidth (by decide) _).2

/-- The mode that bits spell stands for the same bits (R45). -/
@[simp] theorem camValue_ofCode (b : BitVec 2) : camValue (Cam.ofCode b) = b.setWidth 32 :=
  congrArg (BitVec.setWidth 32) (cam_code_ofCode b)

/-! ## The checks that pass -/

theorem driverCommand_owned {s : State} (r : Result) (owned : s.life = .owned) : driverCommand s r = r := by
  rw [driverCommand_eq, if_pos owned]

/-- The opt-in and the clock are all that group 1 asks for; ownership is not (R56). -/
theorem baseCommand_accessible {s : State} (r : Result) (lowlevel : s.straps.lowlevelEn = true)
    (clocked : s.clkEn = true) : baseCommand s r = r := by
  simp [baseCommand_eq, lowlevel, clocked]

/-- A compare value within the tier's width passes the operand check (R47 (c)). -/
theorem operandFault_fits {t : Tier} {v : Word} (fits : t = .gp32 ∨ v.toNat < 65536) : operandFault t v = none :=
  (operandFault_none_iff t .ch1 v).mpr (by simpa [Instr.wellFormed] using fits)

/-! ## Bodies of one register access -/

/-- A command that writes one field changes that field, answers, and records the write. -/
theorem conclude_regWr (w : CmdWord) (d : Word) (f : Field) (v : Word) (s : State) :
    conclude w (.done d (regWr f v s)) = .next { s with
      tim := s.tim.write f v, rsp := some ⟨.ok, d⟩, port := s.port ++ [.wr f v] } := rfl

/-- A command that reads one field answers with it and records the read. -/
theorem conclude_regRd (w : CmdWord) (f : Field) (s : State) :
    conclude w (regRd f s .done) = .next { s with
      rsp := some ⟨.ok, s.tim.read f⟩, port := s.port ++ [.rd f (s.tim.read f)] } := rfl

/-- Reading the alignment mode is reading `CMS`: all its encodings are modes (R74). -/
theorem regRd_cam (s : State) :
    (regRd .cms s fun b s => withCam b s fun m => .done (camValue m) s) = regRd .cms s .done := by
  simp [regRd_eq]

/-! ## Accepted commands -/

theorem exec_getDuty_owned {s : State} (ch : Channel) (owned : s.life = .owned) : exec (.getDuty ch) s = .next { s with
    rsp := some ⟨.ok, s.tim.ccr.get ch⟩, port := s.port ++ [.rd (.ccr ch) (s.tim.ccr.get ch)] } := by
  simp only [exec, execGetDuty, driverCommand_owned _ owned, conclude_regRd, read_ccr]

theorem exec_getCam_owned {s : State} (owned : s.life = .owned) : exec .getCam s = .next { s with
    rsp := some ⟨.ok, s.tim.cms.setWidth 32⟩, port := s.port ++ [.rd .cms (s.tim.cms.setWidth 32)] } := by
  simp only [exec, execGetCam, driverCommand_owned _ owned, regRd_cam, conclude_regRd, read_cms]

/-- A duty below `ARR` is written to the channel's compare register (R89). -/
theorem exec_setDuty_below {s : State} {d : Word} (ch : Channel) (owned : s.life = .owned)
    (fits : s.straps.tier = .gp32 ∨ d.toNat < 65536) (below : d.toNat < s.tim.arr.toNat) :
    exec (.setDuty ch d) s = .next { s with
      tim := { s.tim with ccr := s.tim.ccr.set ch d }, rsp := some ⟨.ok, 0#32⟩,
      port := s.port ++ [.rd .arr s.tim.arr, .wr (.ccr ch) d] } := by
  simp only [exec, execSetDuty, driverCommand_owned _ owned, operandFault_fits fits, check_none, regRd_eq, read_arr,
    ge_iff_le, Nat.not_le.mpr below, if_false, conclude_regWr, write_ccr, List.append_assoc, List.cons_append,
    List.nil_append]

section Accessible

variable {s : State} (lowlevel : s.straps.lowlevelEn = true) (clocked : s.clkEn = true)
include lowlevel clocked

theorem exec_llEnableOutputs_adv (b : Bool) (adv : s.straps.tier = .adv) :
    exec (.llEnableOutputs b) s = .next { s with
      tim := { s.tim with moe := b }, rsp := some ⟨.ok, 0#32⟩, port := s.port ++ [.wr .moe (boolArg b)] } := by
  simp only [exec, execLlEnableOutputs, baseCommand_accessible _ lowlevel clocked, enableOutputs, adv, if_true,
    conclude_regWr, write_moe, boolArg_getLsbD_zero]

theorem exec_llEnableOutputs_gp (b : Bool) (gp : s.straps.tier ≠ .adv) :
    exec (.llEnableOutputs b) s = .next (respond .ok 0#32 s) := by
  simp only [exec, execLlEnableOutputs, baseCommand_accessible _ lowlevel clocked, enableOutputs, gp, if_false,
    conclude_done]

theorem exec_llSetOcm (ch : Channel) (ocm : Ocm) : exec (.llSetOcm ch ocm) s = .next { s with
    tim := { s.tim with ocm := s.tim.ocm.set ch ocm.code }, rsp := some ⟨.ok, 0#32⟩,
    port := s.port ++ [.wr (.ocm ch) (ocmValue ocm)] } := by
  simp only [exec, execLlSetOcm, baseCommand_accessible _ lowlevel clocked, conclude_regWr, write_ocm, ocmValue_bits]

theorem exec_llEnableCh (ch : Channel) (b : Bool) : exec (.llEnableCh ch b) s = .next { s with
    tim := { s.tim with cce := s.tim.cce.set ch b }, rsp := some ⟨.ok, 0#32⟩,
    port := s.port ++ [.wr (.cce ch) (boolArg b)] } := by
  simp only [exec, execLlEnableCh, baseCommand_accessible _ lowlevel clocked, conclude_regWr, write_cce,
    boolArg_getLsbD_zero]

/-- No bound but the width: `ARR` is not even read (R60). -/
theorem exec_llSetCmp_fits {v : Word} (ch : Channel) (fits : s.straps.tier = .gp32 ∨ v.toNat < 65536) :
    exec (.llSetCmp ch v) s = .next { s with
      tim := { s.tim with ccr := s.tim.ccr.set ch v }, rsp := some ⟨.ok, 0#32⟩,
      port := s.port ++ [.wr (.ccr ch) v] } := by
  simp only [exec, execLlSetCmp, baseCommand_accessible _ lowlevel clocked, operandFault_fits fits, check_none,
    conclude_regWr, write_ccr]

theorem exec_llGetCmp (ch : Channel) : exec (.llGetCmp ch) s = .next { s with
    rsp := some ⟨.ok, s.tim.ccr.get ch⟩, port := s.port ++ [.rd (.ccr ch) (s.tim.ccr.get ch)] } := by
  simp only [exec, execLlGetCmp, baseCommand_accessible _ lowlevel clocked, conclude_regRd, read_ccr]

theorem exec_llGetMaxCmp : exec .llGetMaxCmp s = .next { s with
    rsp := some ⟨.ok, s.tim.arr⟩, port := s.port ++ [.rd .arr s.tim.arr] } := by
  simp only [exec, execLlGetMaxCmp, baseCommand_accessible _ lowlevel clocked, conclude_regRd, read_arr]

theorem exec_llIsTimEn : exec .llIsTimEn s = .next { s with
    rsp := some ⟨.ok, boolArg s.tim.cen⟩, port := s.port ++ [.rd .cen (boolArg s.tim.cen)] } := by
  simp only [exec, execLlIsTimEn, baseCommand_accessible _ lowlevel clocked, conclude_regRd, read_cen]

theorem exec_llSetTimEn (b : Bool) : exec (.llSetTimEn b) s = .next { s with
    tim := { s.tim with cen := b }, rsp := some ⟨.ok, 0#32⟩, port := s.port ++ [.wr .cen (boolArg b)] } := by
  simp only [exec, execLlSetTimEn, baseCommand_accessible _ lowlevel clocked, conclude_regWr, write_cen,
    boolArg_getLsbD_zero]

/-- On a stopped counter the mode is written, and neither the period nor the run bit (R65). -/
theorem exec_llSetCam_stopped (mode : Cam) (stopped : s.tim.cen = false) : exec (.llSetCam mode) s = .next { s with
    tim := { s.tim with cms := mode.code }, rsp := some ⟨.ok, 0#32⟩,
    port := s.port ++ [.rd .cen 0#32, .wr .cms (camValue mode)] } := by
  simp only [exec, execLlSetCam, baseCommand_accessible _ lowlevel clocked, regRd_eq, read_cen, stopped, boolArg_eq_one,
    Bool.false_eq_true, if_false, conclude_regWr, write_cms, camValue_bits, List.append_assoc]
  rfl

/-- On a running counter the one operation is the read of `CEN`, whatever the mode held (R65, R102). -/
theorem exec_llSetCam_running (mode : Cam) (running : s.tim.cen = true) : exec (.llSetCam mode) s =
    .next (raiseFault (encode (.llSetCam mode)) .camWhileRunning { s with port := s.port ++ [.rd .cen 1#32] }) := by
  simp only [exec, execLlSetCam, baseCommand_accessible _ lowlevel clocked, regRd_eq, read_cen, running, boolArg_eq_one,
    if_true, conclude_raised]
  rfl

theorem exec_llGetCam : exec .llGetCam s = .next { s with
    rsp := some ⟨.ok, s.tim.cms.setWidth 32⟩, port := s.port ++ [.rd .cms (s.tim.cms.setWidth 32)] } := by
  simp only [exec, execLlGetCam, baseCommand_accessible _ lowlevel clocked, regRd_cam, conclude_regRd, read_cms]

end Accessible

/-! ## What was set reads back -/

/-- A word that the host presents to an unhalted engine runs its command. -/
theorem step_encode {s : State} {i : Instr} {rest : List HostEvent} (legal : s.straps.legal = true)
    (unhalted : s.fault = false) (input : s.input = .cmd (encode i) :: rest) : step s = exec i (s.take rest) := by
  rw [step_of_legal legal, engineStep_command input unhalted (decode_encode i)]

/-- The word of an accepted duty leaves its value in `CCR[ch]` and the engine ready for the next word (R89). -/
theorem step_setDuty_below {s : State} {ch : Channel} {d : Word} {rest : List HostEvent}
    (legal : s.straps.legal = true) (unhalted : s.fault = false) (owned : s.life = .owned)
    (fits : s.straps.tier = .gp32 ∨ d.toNat < 65536) (below : d.toNat < s.tim.arr.toNat)
    (input : s.input = .cmd (encode (.setDuty ch d)) :: rest) :
    ∃ u, step s = .next u ∧ u.straps = s.straps ∧ u.life = .owned ∧ u.clkEn = s.clkEn ∧ u.fault = false ∧
      u.input = rest ∧ u.tim.ccr.get ch = d :=
  ⟨_, (step_encode legal unhalted input).trans (exec_setDuty_below ch owned fits below), rfl, owned, rfl, unhalted, rfl,
    get_set_same ..⟩

/-- Both readers of a compare value answer it and raise no fault (R61, R90). -/
theorem exec_duty_reader {s : State} {ch : Channel} {reader : Instr} (owned : s.life = .owned)
    (h : reader = .getDuty ch ∨ (reader = .llGetCmp ch ∧ s.straps.lowlevelEn = true ∧ s.clkEn = true)) :
    ∃ t, exec reader s = .next t ∧ t.rsp = some ⟨.ok, s.tim.ccr.get ch⟩ ∧ t.fault = s.fault := by
  obtain rfl | ⟨rfl, lowlevel, clocked⟩ := h
  · exact ⟨_, exec_getDuty_owned ch owned, rfl, rfl⟩
  · exact ⟨_, exec_llGetCmp lowlevel clocked ch, rfl, rfl⟩

/-- If the body reaches its end, then in a state with `P`. -/
def EndsWith (P : State → Prop) : Result → Prop
  | .done _ s => P s
  | .raised _ _ => True

namespace EndsWith

variable {P : State → Prop}

theorem check {c : Option FaultCode} {s : State} {r : Result} (h : EndsWith P r) : EndsWith P (check c s r) := by
  cases c with
  | none => exact h
  | some c => trivial

theorem regRd {f : Field} {s : State} {k : Word → State → Result}
    (h : EndsWith P (k (s.tim.read f) { s with port := s.port ++ [.rd f (s.tim.read f)] })) :
    EndsWith P (regRd f s k) := h

theorem withCam {b : Word} {s : State} {k : Cam → Result} (h : ∀ m, EndsWith P (k m)) :
    EndsWith P (withCam b s k) := by
  unfold Machine.withCam
  split
  · exact h _
  · trivial

theorem withPeriod {f : Nat} {m : Cam} {s : State} {k : Word → Result} (h : ∀ p, EndsWith P (k p)) :
    EndsWith P (withPeriod f m s k) := by
  obtain ⟨p, -, -, e⟩ | ⟨-, e⟩ := withPeriod_cases f m s k <;> rw [e]
  · exact h _
  · trivial

/-- A command that raised no fault has reached its end. -/
theorem of_unfaulted {w : CmdWord} {r : Result} {t : State} (h : EndsWith P r) (concluded : conclude w r = .next t)
    (unfaulted : t.fault = false) : ∃ d u, t = respond .ok d u ∧ P u := by
  obtain ⟨d, u, rfl, rfl⟩ | ⟨c, u, rfl, rfl⟩ := conclude_next concluded
  · exact ⟨d, u, rfl, h⟩
  · simp at unfaulted

end EndsWith

/-- `SET_CAM` ends with the mode in `CMS`, rescaled or not: the writes after it are to `ARR` and `CEN` (R92). -/
theorem exec_setCam_endsWith (m : Cam) (s : State) : ∃ r, exec (.setCam m) s = conclude (encode (.setCam m)) r ∧
    EndsWith (fun u => u.tim.cms = m.code) r := by
  refine ⟨_, rfl, .check <| .check <| .regRd <| .withCam fun old => .regRd ?_⟩
  dsimp only
  split
  · exact .withPeriod fun p => camValue_bits m
  · exact camValue_bits m

/-- `LL_SET_CAM` ends with the mode in `CMS`, or at its fault (R65). -/
theorem exec_llSetCam_endsWith (m : Cam) (s : State) : ∃ r, exec (.llSetCam m) s = conclude (encode (.llSetCam m)) r ∧
    EndsWith (fun u => u.tim.cms = m.code) r := by
  refine ⟨_, rfl, .check <| .check <| .regRd ?_⟩
  split
  · trivial
  · exact camValue_bits m

/-- After either setter that raised no fault, `CMS` is the mode (R65, R92). -/
theorem cms_after_setter {s t : State} {m : Cam} (h : exec (.setCam m) s = .next t ∨ exec (.llSetCam m) s = .next t)
    (unfaulted : t.fault = false) : t.tim.cms = m.code := by
  obtain ⟨w, r, concluded, ends⟩ : ∃ w r, conclude w r = .next t ∧ EndsWith (fun u => u.tim.cms = m.code) r := by
    obtain h | h := h
    · obtain ⟨r, e, ends⟩ := exec_setCam_endsWith m s
      exact ⟨_, r, e.symm.trans h, ends⟩
    · obtain ⟨r, e, ends⟩ := exec_llSetCam_endsWith m s
      exact ⟨_, r, e.symm.trans h, ends⟩
  obtain ⟨d, u, rfl, held⟩ := ends.of_unfaulted concluded unfaulted
  exact held

end Sys2Proof.Machine

/-! ## The statements -/

namespace Sys2Proof.Proofs

open Sys2Proof.Machine Sys2Proof.Safety

/-- Settles O58: the first word writes `CCR[ch]`, and either reader answers what `CCR[ch]` holds. -/
theorem dutyValueReadsBack : Obligations.DutyValueReadsBack := by
  intro s ch d reader legal unhalted owned fits below access input
  obtain ⟨u, written, straps, owned, clkEn, unhalted, input, held⟩ :=
    step_setDuty_below legal unhalted owned fits below input
  rw [← straps] at legal access
  rw [← clkEn] at access
  obtain ⟨t, read, rsp, fault⟩ := exec_duty_reader (s := u.take []) owned access
  have answered : step u = .next t := (step_encode legal unhalted input).trans read
  rw [take_tim, held] at rsp
  exact ⟨t, (run_succ ..).mpr ⟨u, written, (run_succ ..).mpr ⟨t, answered, (run_zero ..).mpr rfl⟩⟩, rsp,
    fault.trans unhalted⟩

/-- Settles O59: both setters leave the mode in `CMS`, and both readers answer `CMS`. -/
theorem alignmentModeReadsBack : Obligations.AlignmentModeReadsBack := by
  intro s t m _ unfaulted setter
  rw [← cms_after_setter setter unfaulted]
  exact ⟨fun owned => ⟨_, exec_getCam_owned owned, rfl⟩,
    fun lowlevel clocked => ⟨_, exec_llGetCam lowlevel clocked, rfl⟩⟩

/-- Settles O4: each word is the one its command is encoded to, and such a word decodes. -/
theorem specWordsDecodeAsWritten : Obligations.SpecWordsDecodeAsWritten :=
  ⟨decode_encode (.init 1000#32 .edge), decode_encode .drop, decode_encode (.enable .ch1),
    decode_encode (.disable .ch4), decode_encode (.setFreq 1000#32), decode_encode (.setDuty .ch1 16000#32),
    decode_encode (.setOcm .ch3 .toggle), decode_encode (.setCam .center1), decode_encode (.llSetOcm .ch2 .pwm2),
    decode_encode (.llEnableCh .ch3 true), decode_encode (.llSetCmp .ch1 0xFFFFFFFF#32),
    decode_encode (.llSetCam .center2), decode_encode (.llSetDtVal 64#8), decode_encode (.llEnableNch .ch1 true)⟩

/-- Settles O32: the one command of the group whose body depends on the tier. -/
theorem llEnableOutputsWritesMoeOnAdv : Obligations.LlEnableOutputsWritesMoeOnAdv :=
  fun _ b lowlevel clocked =>
    ⟨exec_llEnableOutputs_adv lowlevel clocked b, exec_llEnableOutputs_gp lowlevel clocked b, rfl⟩

/-- Settles O33: one write, to `OCM[ch]`. -/
theorem llSetOcmWritesCompareMode : Obligations.LlSetOcmWritesCompareMode :=
  fun _ ch ocm => ⟨fun lowlevel clocked => exec_llSetOcm lowlevel clocked ch ocm, rfl⟩

/-- Settles O34: one write, to `CCE[ch]`. -/
theorem llEnableChWritesChannelBit : Obligations.LlEnableChWritesChannelBit :=
  fun _ ch b => ⟨fun lowlevel clocked => exec_llEnableCh lowlevel clocked ch b, rfl⟩

/-- Settles O35: one write, to `CCR[ch]`, where the operand check passes, and its fault where it does not. -/
theorem llSetCmpWritesUnchecked : Obligations.LlSetCmpWritesUnchecked :=
  fun _ ch _ lowlevel clocked =>
    ⟨exec_llSetCmp_fits lowlevel clocked ch, exec_llSetCmp_wide ch lowlevel clocked, rfl⟩

/-- Settles O36: one read, of `CCR[ch]`. -/
theorem llGetCmpAnswersCompareValue : Obligations.LlGetCmpAnswersCompareValue :=
  fun _ ch => ⟨fun lowlevel clocked => exec_llGetCmp lowlevel clocked ch, rfl⟩

/-- Settles O37: one read, of `ARR`. -/
theorem llGetMaxCmpAnswersPeriod : Obligations.LlGetMaxCmpAnswersPeriod :=
  ⟨fun _ => exec_llGetMaxCmp, rfl⟩

/-- Settles O38: one read, of `CEN`. -/
theorem llIsTimEnAnswersRunBit : Obligations.LlIsTimEnAnswersRunBit :=
  ⟨fun _ => exec_llIsTimEn, rfl⟩

/-- Settles O39: one write, to `CEN`. -/
theorem llSetTimEnWritesRunBit : Obligations.LlSetTimEnWritesRunBit :=
  fun _ b => ⟨fun lowlevel clocked => exec_llSetTimEn lowlevel clocked b, rfl⟩

/-- Settles O40: the read of `CEN` decides between the write of `CMS` and the fault. -/
theorem llSetCamRefusesRunningCounter : Obligations.LlSetCamRefusesRunningCounter :=
  fun _ mode lowlevel clocked =>
    ⟨exec_llSetCam_stopped lowlevel clocked mode, exec_llSetCam_running lowlevel clocked mode, rfl⟩

/-- Settles O41: one read, of `CMS`, all of whose encodings are modes. -/
theorem llGetCamAnswersMode : Obligations.LlGetCamAnswersMode :=
  ⟨fun _ => exec_llGetCam, rfl⟩

end Sys2Proof.Proofs

/-! # The proofs of the complementary family: what an accepted command of group 2 stores

Each body of this family is one write to the register port. Past the common conditions, which look at no register, what
is left is that the written operand is the field's own value again. -/

namespace Sys2Proof.Machine

/-- The opt-in, the tier and the clock are all that group 2 asks for; neither ownership nor a register is (R67). -/
theorem complementaryCommand_accessible {s : State} (r : Result) (lowlevel : s.straps.lowlevelEn = true)
    (adv : s.straps.tier = .adv) (clocked : s.clkEn = true) : complementaryCommand s r = r := by
  simp [complementaryCommand_eq, lowlevel, adv, clocked]

section AccessibleOnAdv

variable {s : State} (lowlevel : s.straps.lowlevelEn = true) (adv : s.straps.tier = .adv) (clocked : s.clkEn = true)
include lowlevel adv clocked

theorem exec_llSetDtCkd (v : BitVec 2) : exec (.llSetDtCkd v) s = .next { s with
    tim := { s.tim with ckd := v }, rsp := some ⟨.ok, 0#32⟩, port := s.port ++ [.wr .ckd (v.setWidth 32)] } := by
  have stored : (v.setWidth 32).setWidth 2 = v := (operand_setWidth (by decide) v).2
  simp only [exec, execLlSetDtCkd, complementaryCommand_accessible _ lowlevel adv clocked, conclude_regWr, write_ckd,
    stored]

theorem exec_llSetDtVal (v : BitVec 8) : exec (.llSetDtVal v) s = .next { s with
    tim := { s.tim with dtg := v }, rsp := some ⟨.ok, 0#32⟩, port := s.port ++ [.wr .dtg (v.setWidth 32)] } := by
  have stored : (v.setWidth 32).setWidth 8 = v := (operand_setWidth (by decide) v).2
  simp only [exec, execLlSetDtVal, complementaryCommand_accessible _ lowlevel adv clocked, conclude_regWr, write_dtg,
    stored]

/-- The main output's enable `CCE[ch]` is neither asked for nor touched (R70). -/
theorem exec_llEnableNch (ch : Channel) (b : Bool) : exec (.llEnableNch ch b) s = .next { s with
    tim := { s.tim with ccne := s.tim.ccne.set ch b }, rsp := some ⟨.ok, 0#32⟩,
    port := s.port ++ [.wr (.ccne ch) (boolArg b)] } := by
  simp only [exec, execLlEnableNch, complementaryCommand_accessible _ lowlevel adv clocked, conclude_regWr, write_ccne,
    boolArg_getLsbD_zero]

end AccessibleOnAdv

end Sys2Proof.Machine

/-! ## The obligations -/

namespace Sys2Proof.Proofs

open Sys2Proof.Machine

/-- Settles O42: one write each, to `CKD` or to `DTG`, whose widths are the operands' own. -/
theorem deadTimeCommandsStoreValues : Obligations.DeadTimeCommandsStoreValues :=
  fun _ lowlevel adv clocked =>
    ⟨fun v => ⟨exec_llSetDtCkd lowlevel adv clocked v, rfl⟩, fun v => ⟨exec_llSetDtVal lowlevel adv clocked v, rfl⟩⟩

/-- Settles O43: one write, to `CCNE[ch]`. -/
theorem llEnableNchWritesComplementaryBit : Obligations.LlEnableNchWritesComplementaryBit :=
  fun _ ch b => ⟨fun lowlevel adv clocked => exec_llEnableNch lowlevel adv clocked ch b, rfl⟩

end Sys2Proof.Proofs

/-! # The proofs of the alignment-policy family: the frequency arithmetic

Both functions are one floor division, so each is known by what brackets the base clock: the counts of a period times
the frequency do not exceed it, and one more count, or one more hertz, does. The bounds over the rationals, and those of
the rescaling, which applies one function after the other, are read off the two brackets. -/

/-! ## The two functions as bounds on the base clock -/

namespace Sys2Proof.Machine

theorem scale_le_two (m : Cam) : scale m ≤ 2 := by cases m <;> decide

theorem maxp_of_ne_gp32 {t : Tier} (narrow : t ≠ .gp32) : maxp t = 65535 := by
  cases t with
  | gp16 | adv => decide
  | gp32 => contradiction

/-- The divisor of `freq_from_period` is at least 1 in every mode (R77). -/
theorem counts_pos (P : Nat) (m : Cam) : 0 < (P + 1) * scale m := Nat.mul_pos P.succ_pos (scale_pos m)

section Formulas

variable {p : Straps} {f P : Nat} {m : Cam}

/-! ### `period_from_freq` (R75) -/

theorem periodFromFreq_zero (p : Straps) (m : Cam) : periodFromFreq p 0 m = .error .freqRange := rfl

theorem periodFromFreq_no_count (noCount : p.baseClockHz.toNat / (f * scale m) = 0) :
    periodFromFreq p f m = .error .freqRange := by
  simp [periodFromFreq, noCount]

theorem periodFromFreq_wide (wide : maxp p.tier < p.baseClockHz.toNat / (f * scale m) - 1) :
    periodFromFreq p f m = .error .freqRange := by
  simp [periodFromFreq, wide]

theorem periodFromFreq_fits (positive : 0 < f) (count : p.baseClockHz.toNat / (f * scale m) ≠ 0)
    (fits : p.baseClockHz.toNat / (f * scale m) - 1 ≤ maxp p.tier) :
    periodFromFreq p f m = .ok (p.baseClockHz.toNat / (f * scale m) - 1) := by
  unfold periodFromFreq
  dsimp only
  rw [if_neg positive.ne', if_neg count, if_neg fits.not_gt]

/-- The counts of the period given fit one cycle of the frequency. -/
theorem periodFromFreq_mul_le (h : periodFromFreq p f m = .ok P) :
    (P + 1) * (f * scale m) ≤ p.baseClockHz.toNat := by
  obtain ⟨-, count, -⟩ := periodFromFreq_ok h
  exact count ▸ Nat.div_mul_le_self ..

/-- One more count than the period given does not fit one cycle of the frequency. -/
theorem lt_periodFromFreq_succ_mul (h : periodFromFreq p f m = .ok P) :
    p.baseClockHz.toNat < (P + 1 + 1) * (f * scale m) := by
  obtain ⟨positive, count, -⟩ := periodFromFreq_ok h
  rw [← Nat.div_lt_iff_lt_mul (Nat.mul_pos positive (scale_pos m)), ← count]
  exact Nat.lt_succ_self _

/-! ### `freq_from_period` (R76) -/

theorem le_freqFromPeriod_iff : f ≤ freqFromPeriod p P m ↔ f * ((P + 1) * scale m) ≤ p.baseClockHz.toNat :=
  Nat.le_div_iff_mul_le (counts_pos P m)

theorem freqFromPeriod_lt_iff : freqFromPeriod p P m < f ↔ p.baseClockHz.toNat < f * ((P + 1) * scale m) :=
  Nat.div_lt_iff_lt_mul (counts_pos P m)

theorem freqFromPeriod_eq_zero_iff : freqFromPeriod p P m = 0 ↔ p.baseClockHz.toNat < (P + 1) * scale m := by
  rw [← Nat.lt_one_iff, freqFromPeriod_lt_iff, Nat.one_mul]

/-- Where the counts of the period divide the base clock, nothing is rounded. -/
theorem freqFromPeriod_mul_of_dvd (dvd : (P + 1) * scale m ∣ p.baseClockHz.toNat) :
    freqFromPeriod p P m * ((P + 1) * scale m) = p.baseClockHz.toNat :=
  Nat.div_mul_cancel dvd

/-- A period the register can hold gives the most counts at `MAXP`, center-aligned. -/
theorem counts_le (held : P ≤ maxp p.tier) : (P + 1) * scale m ≤ (maxp p.tier + 1) * 2 :=
  Nat.mul_le_mul (Nat.succ_le_succ held) (scale_le_two m)

/-- The counts of a 16-bit period are at most `2^17`, so only a slower clock is divided to 0 (R76). -/
theorem freqFromPeriod_zero_cause (held : P ≤ maxp p.tier) (zero : freqFromPeriod p P m = 0) :
    p.tier = .gp32 ∨ p.baseClockHz.toNat < 131072 := by
  refine or_iff_not_imp_left.mpr fun narrow => ?_
  calc p.baseClockHz.toNat
      < (P + 1) * scale m := freqFromPeriod_eq_zero_iff.mp zero
    _ ≤ (maxp p.tier + 1) * 2 := counts_le held
    _ = 131072 := by rw [maxp_of_ne_gp32 narrow]

/-! ### The one after the other (R78) -/

/-- The period of a frequency gives no lower frequency back. -/
theorem le_freqFromPeriod_of_periodFromFreq (h : periodFromFreq p f m = .ok P) : f ≤ freqFromPeriod p P m := by
  rw [le_freqFromPeriod_iff, Nat.mul_left_comm]
  exact periodFromFreq_mul_le h

end Formulas

/-! ## The bounds over the rationals -/

section Rationals

variable {p : Straps} {f P : Nat} {m : Cam}

theorem scale_cast_pos (m : Cam) : (0 : ℚ) < scale m := Nat.cast_pos.mpr (scale_pos m)

/-- The divisor of `period_from_freq` is not 0 where a period is given (R77). -/
theorem periodFromFreq_divisor_pos (h : periodFromFreq p f m = .ok P) : (0 : ℚ) < f * scale m :=
  mul_pos (Nat.cast_pos.mpr (periodFromFreq_ok h).1) (scale_cast_pos m)

theorem periodFromFreq_le_div (h : periodFromFreq p f m = .ok P) :
    (P + 1 : ℚ) ≤ (p.baseClockHz.toNat : ℚ) / (f * scale m) := by
  rw [le_div_iff₀ (periodFromFreq_divisor_pos h)]
  exact_mod_cast periodFromFreq_mul_le h

theorem div_lt_periodFromFreq_succ (h : periodFromFreq p f m = .ok P) :
    (p.baseClockHz.toNat : ℚ) / (f * scale m) < P + 1 + 1 := by
  rw [div_lt_iff₀ (periodFromFreq_divisor_pos h)]
  exact_mod_cast lt_periodFromFreq_succ_mul h

/-- The frequency of one more count is below the one asked for. -/
theorem div_succ_counts_lt_freq (h : periodFromFreq p f m = .ok P) :
    (p.baseClockHz.toNat : ℚ) / ((P + 1 + 1) * scale m) < f := by
  rw [div_lt_iff₀ (mul_pos (by positivity) (scale_cast_pos m)), mul_left_comm]
  exact_mod_cast lt_periodFromFreq_succ_mul h

/-- The unrounded frequency of the period given is not below the one asked for. -/
theorem freq_le_div_counts (h : periodFromFreq p f m = .ok P) :
    (f : ℚ) ≤ (p.baseClockHz.toNat : ℚ) / ((P + 1) * scale m) := by
  rw [le_div_iff₀ (mul_pos (by positivity) (scale_cast_pos m)), mul_left_comm]
  exact_mod_cast periodFromFreq_mul_le h

/-- The counts before the rescaling, bracketed by the frequency read from them: `C/(f0+1) < n0 ≤ C/f0` (R79). -/
theorem counts_bracket_freqFromPeriod (p : Straps) (P : Nat) (m : Cam) (positive : 0 < freqFromPeriod p P m) :
    (p.baseClockHz.toNat : ℚ) / (freqFromPeriod p P m + 1) < (P + 1) * scale m ∧
      ((P + 1) * scale m : ℚ) ≤ p.baseClockHz.toNat / freqFromPeriod p P m := by
  rw [div_lt_iff₀ (by positivity), le_div_iff₀ (Nat.cast_pos.mpr positive), mul_comm, mul_comm (_ * _)]
  exact ⟨by exact_mod_cast freqFromPeriod_lt_iff.mp (Nat.lt_succ_self (freqFromPeriod p P m)),
    by exact_mod_cast le_freqFromPeriod_iff.mp (le_refl (freqFromPeriod p P m))⟩

/-- The counts after it, bracketed by the same frequency: `C/f0 - s1 < n1 ≤ C/f0` (R79). -/
theorem counts_bracket_periodFromFreq (h : periodFromFreq p f m = .ok P) :
    (p.baseClockHz.toNat : ℚ) / f - scale m < (P + 1) * scale m ∧
      ((P + 1) * scale m : ℚ) ≤ p.baseClockHz.toNat / f := by
  have positive : (0 : ℚ) < f := Nat.cast_pos.mpr (periodFromFreq_ok h).1
  rw [sub_lt_iff_lt_add, ← add_one_mul, div_lt_iff₀ positive, le_div_iff₀ positive, mul_assoc, mul_assoc,
    mul_comm (scale m : ℚ)]
  exact ⟨by exact_mod_cast lt_periodFromFreq_succ_mul h, by exact_mod_cast periodFromFreq_mul_le h⟩

/-- Rounding a frequency down to whole hertz costs this much of a period. -/
theorem div_sub_div_succ {C f : ℚ} (positive : 0 < f) : C / f - C / (f + 1) = C / (f * (f + 1)) := by
  field_simp
  ring

end Rationals

/-! ## The rescaling of `SET_CAM` (R79) -/

section Rescaling

variable {p : Straps} {P0 P1 : Nat} {m0 m1 : Cam} (h : periodFromFreq p (freqFromPeriod p P0 m0) m1 = .ok P1)
include h

theorem neg_scale_lt_rescaled_sub : -(scale m1 : ℚ) < (P1 + 1) * scale m1 - (P0 + 1) * scale m0 := by
  obtain ⟨-, before⟩ := counts_bracket_freqFromPeriod p P0 m0 (periodFromFreq_ok h).1
  obtain ⟨after, -⟩ := counts_bracket_periodFromFreq h
  linarith only [before, after]

theorem rescaled_sub_lt : ((P1 + 1) * scale m1 - (P0 + 1) * scale m0 : ℚ) <
    p.baseClockHz.toNat / (freqFromPeriod p P0 m0 * (freqFromPeriod p P0 m0 + 1)) := by
  have positive := (periodFromFreq_ok h).1
  obtain ⟨before, -⟩ := counts_bracket_freqFromPeriod p P0 m0 positive
  obtain ⟨-, after⟩ := counts_bracket_periodFromFreq h
  rw [← div_sub_div_succ (Nat.cast_pos.mpr positive)]
  linarith only [before, after]

/-- Where `f0*(f0+1)` reaches the base clock, rounding the frequency costs at most one count. -/
theorem rescaled_sub_within_two
    (fast : (p.baseClockHz.toNat : ℚ) ≤ freqFromPeriod p P0 m0 * (freqFromPeriod p P0 m0 + 1)) :
    -2 < ((P1 + 1) * scale m1 - (P0 + 1) * scale m0 : ℚ) ∧ ((P1 + 1) * scale m1 - (P0 + 1) * scale m0 : ℚ) < 2 := by
  have scaled : (scale m1 : ℚ) ≤ 2 := by exact_mod_cast scale_le_two m1
  have rounded := div_le_one_of_le₀ fast (by positivity)
  have lower := neg_scale_lt_rescaled_sub h
  have upper := rescaled_sub_lt h
  exact ⟨by linarith only [scaled, lower], by linarith only [rounded, upper]⟩

/-- Where neither division leaves a remainder, the counts are the same. -/
theorem rescaled_eq_of_dvd (clock : (P0 + 1) * scale m0 ∣ p.baseClockHz.toNat)
    (counts : scale m1 ∣ (P0 + 1) * scale m0) : (P1 + 1) * scale m1 = (P0 + 1) * scale m0 := by
  obtain ⟨positive, count, -⟩ := periodFromFreq_ok h
  rw [count, ← freqFromPeriod_mul_of_dvd clock, Nat.mul_div_mul_left _ _ positive, Nat.div_mul_cancel counts]

end Rescaling

end Sys2Proof.Machine

/-! ## The statements on the frequency arithmetic -/

namespace Sys2Proof.Proofs

open Sys2Proof.Machine

/-- Settles O47: the bracket of `period_from_freq`, divided once by the frequency and once by the counts. -/
theorem setFreqToleranceIsOneCount : Obligations.SetFreqToleranceIsOneCount := by
  refine ⟨fun p f P m h => ⟨periodFromFreq_le_div h, div_lt_periodFromFreq_succ h, div_succ_counts_lt_freq h,
    freq_le_div_counts h, le_freqFromPeriod_of_periodFromFreq h⟩, fun p clock => ?_⟩
  have quotient : p.baseClockHz.toNat / (5000000 * scale .edge) = 6 := by rw [clock]; decide
  have fits : 6 - 1 ≤ maxp p.tier := by cases p.tier <;> decide
  have period := periodFromFreq_fits (by decide) (quotient.trans_ne (by decide)) (quotient ▸ fits)
  rw [quotient] at period
  exact ⟨period, by rw [freqFromPeriod, clock]; decide⟩

/-- Settles O48: both counts are compared with the base clock over the frequency between them. -/
theorem rescalingKeepsFrequencyWithinRounding : Obligations.RescalingKeepsFrequencyWithinRounding := by
  rintro p P0 P1 m0 m1 C f0 n0 n1 rfl rfl rfl rfl h
  exact ⟨neg_scale_lt_rescaled_sub h, rescaled_sub_lt h, rescaled_sub_within_two h,
    fun clock counts => by exact_mod_cast rescaled_eq_of_dvd h clock counts, le_freqFromPeriod_of_periodFromFreq h⟩

/-- Settles O44: the table of R73. -/
theorem scaleIsOneOrTwo : Obligations.ScaleIsOneOrTwo := ⟨rfl, rfl, rfl, rfl⟩

/-- Settles O45: the arms of R75; on the 32-bit tier no quotient is above the greatest base clock. -/
theorem periodFromFreqFollowsFormula : Obligations.PeriodFromFreqFollowsFormula := by
  intro p f m
  refine ⟨fun zero => zero ▸ periodFromFreq_zero p m, fun _ => periodFromFreq_no_count,
    fun _ => periodFromFreq_wide, periodFromFreq_fits, fun wide => ?_⟩
  have quotient : p.baseClockHz.toNat / (f * scale m) ≤ p.baseClockHz.toNat := Nat.div_le_self ..
  have clock : p.baseClockHz.toNat ≤ 2 ^ 32 - 1 := Nat.le_sub_one_of_lt p.baseClockHz.isLt
  rw [wide]
  exact ⟨quotient, clock, Nat.sub_le_sub_right (quotient.trans clock) 1⟩

/-- Settles O46: the floor is 0 exactly below the divisor, and the divisor is bounded by the register. -/
theorem freqFromPeriodFollowsFormula : Obligations.FreqFromPeriodFollowsFormula := by
  intro p P m
  refine ⟨rfl, Nat.div_le_self .., freqFromPeriod_eq_zero_iff, fun held =>
    ⟨counts_pos P m, (counts_le held).trans ?_, freqFromPeriod_zero_cause held⟩⟩
  have := maxp_lt p.tier
  omega

end Sys2Proof.Proofs

/-! # The proofs of the driver family: what an accepted command of group 0 does

The bodies of this family follow the spec's pseudocode, so the facts come in its order: the mode read from `CMS`, the
period computed or refused, and then the writes. `INIT` is cut at its one point of failure, the period of step 4. -/

namespace Sys2Proof.Machine

/-! ## The computed period and the mode read, as steps of a body -/

/-- Where the formula gives a period, the command goes on with it (R75). -/
theorem withPeriod_ok {straps : Straps} {f p : Nat} {m : Cam} (period : periodFromFreq straps f m = .ok p) {s : State}
    (held : s.straps = straps) (k : Word → Result) : withPeriod f m s k = k (BitVec.ofNat 32 p) := by
  simp only [withPeriod, held, period]

/-- Where it gives none, the command ends in the state it has reached, with the writes made so far (R75, R103). -/
theorem withPeriod_freqRange {straps : Straps} {f : Nat} {m : Cam}
    (noPeriod : periodFromFreq straps f m = .error .freqRange) {s : State} (held : s.straps = straps)
    (k : Word → Result) : withPeriod f m s k = .raised .freqRange s := by
  simp only [withPeriod, held, noPeriod]

/-- A command that reads the alignment mode goes on with the mode that `CMS` spells (R74). -/
theorem regRd_withCam (s : State) (k : Cam → State → Result) :
    (regRd .cms s fun b u => withCam b u fun m => k m u) =
      k (Cam.ofCode s.tim.cms) { s with port := s.port ++ [.rd .cms (s.tim.cms.setWidth 32)] } := by
  rw [regRd_eq, read_cms, withCam_cms]

/-! ## Commands of at most one register access -/

theorem exec_drop_owned {s : State} (owned : s.life = .owned) :
    exec .drop s = .next { s with life := .unowned, rsp := some ⟨.ok, 0#32⟩ } := by
  simp only [exec, execDrop, driverCommand_owned _ owned, conclude_done]
  rfl

theorem exec_drop_unowned {s : State} (unowned : s.life = .unowned) :
    exec .drop s = .next (raiseFault (encode .drop) .lifecycle s) := by
  simp only [exec, execDrop, driverCommand_eq, unowned, reduceCtorEq, if_false, conclude_raised]

theorem exec_enable_owned {s : State} (ch : Channel) (owned : s.life = .owned) : exec (.enable ch) s = .next { s with
    tim := { s.tim with cce := s.tim.cce.set ch true }, rsp := some ⟨.ok, 0#32⟩,
    port := s.port ++ [.wr (.cce ch) (boolArg true)] } := by
  simp only [exec, execEnable, driverCommand_owned _ owned, conclude_regWr, write_cce, boolArg_getLsbD_zero]

theorem exec_disable_owned {s : State} (ch : Channel) (owned : s.life = .owned) : exec (.disable ch) s = .next { s with
    tim := { s.tim with cce := s.tim.cce.set ch false }, rsp := some ⟨.ok, 0#32⟩,
    port := s.port ++ [.wr (.cce ch) (boolArg false)] } := by
  simp only [exec, execDisable, driverCommand_owned _ owned, conclude_regWr, write_cce, boolArg_getLsbD_zero]

theorem exec_getMaxDuty_owned {s : State} (owned : s.life = .owned) : exec .getMaxDuty s = .next { s with
    rsp := some ⟨.ok, s.tim.arr⟩, port := s.port ++ [.rd .arr s.tim.arr] } := by
  simp only [exec, execGetMaxDuty, driverCommand_owned _ owned, conclude_regRd, read_arr]

theorem exec_setOcm_owned {s : State} (ch : Channel) (ocm : Ocm) (owned : s.life = .owned) :
    exec (.setOcm ch ocm) s = .next { s with
      tim := { s.tim with ocm := s.tim.ocm.set ch ocm.code }, rsp := some ⟨.ok, 0#32⟩,
      port := s.port ++ [.wr (.ocm ch) (ocmValue ocm)] } := by
  simp only [exec, execSetOcm, driverCommand_owned _ owned, conclude_regWr, write_ocm, ocmValue_bits]

/-! ## The frequency commands -/

section SetFreq

variable {s : State} {f : Word} (owned : s.life = .owned)
include owned

/-- The period is computed under the mode held, and is the one write (R86). -/
theorem exec_setFreq_period {p : Nat}
    (period : periodFromFreq s.straps f.toNat (Cam.ofCode s.tim.cms) = .ok p) :
    exec (.setFreq f) s = .next { s with
      tim := { s.tim with arr := BitVec.ofNat 32 p }, rsp := some ⟨.ok, 0#32⟩,
      port := s.port ++ [.rd .cms (s.tim.cms.setWidth 32), .wr .arr (BitVec.ofNat 32 p)] } := by
  simp only [exec, execSetFreq, driverCommand_owned _ owned, regRd_withCam, withPeriod_ok period, conclude_regWr,
    write_arr, List.append_assoc, List.cons_append, List.nil_append]

/-- A frequency without a period leaves the timer as it was: only the mode has been read (R86, R100). -/
theorem exec_setFreq_freqRange
    (noPeriod : periodFromFreq s.straps f.toNat (Cam.ofCode s.tim.cms) = .error .freqRange) :
    exec (.setFreq f) s = .next (raiseFault (encode (.setFreq f)) .freqRange
      { s with port := s.port ++ [.rd .cms (s.tim.cms.setWidth 32)] }) := by
  simp only [exec, execSetFreq, driverCommand_owned _ owned, regRd_withCam, withPeriod_freqRange noPeriod,
    conclude_raised]

end SetFreq

theorem exec_getFreq_owned {s : State} (owned : s.life = .owned) : exec .getFreq s = .next { s with
    rsp := some ⟨.ok, BitVec.ofNat 32 (freqFromPeriod s.straps s.tim.arr.toNat (Cam.ofCode s.tim.cms))⟩,
    port := s.port ++ [.rd .cms (s.tim.cms.setWidth 32), .rd .arr s.tim.arr] } := by
  simp only [exec, execGetFreq, driverCommand_owned _ owned, regRd_withCam, regRd_eq .arr, read_arr, conclude_done,
    List.append_assoc, List.cons_append, List.nil_append]
  rfl

/-! ## `SET_CAM` -/

/-- The state after steps 1 to 3 of `SET_CAM`: mode and period read, the counter stopped, the new mode written (R92). -/
def camSwitched (mode : Cam) (s : State) : State := { s with
  tim := { s.tim with cen := false, cms := mode.code },
  port := s.port ++ [.rd .cms (s.tim.cms.setWidth 32), .rd .arr s.tim.arr, .wr .cen 0#32, .wr .cms (camValue mode)] }

/-- `SET_CAM` on an owned timer, from the switched mode on: a new period if the scale factor changed, and the restart
(R92). -/
theorem exec_setCam_owned {s : State} (mode : Cam) (owned : s.life = .owned) :
    exec (.setCam mode) s = conclude (encode (.setCam mode))
      (if scale mode ≠ scale (Cam.ofCode s.tim.cms) then
        withPeriod (freqFromPeriod s.straps s.tim.arr.toNat (Cam.ofCode s.tim.cms)) mode (camSwitched mode s)
          fun p => .done 0#32 (regWr .cen (boolArg true) (regWr .arr p (camSwitched mode s)))
      else .done 0#32 (regWr .cen (boolArg true) (camSwitched mode s))) := by
  have switched : regWr .cms (camValue mode) (regWr .cen (boolArg false) { s with
      port := (s.port ++ [.rd .cms (s.tim.cms.setWidth 32)]) ++ [.rd .arr s.tim.arr] }) = camSwitched mode s := by
    simp only [regWr, write_cen, write_cms, boolArg_getLsbD_zero, camValue_bits, List.append_assoc]
    rfl
  simp only [exec, execSetCam, driverCommand_owned _ owned, regRd_withCam, regRd_eq .arr, read_arr, switched]

section SetCam

variable {s : State} {mode : Cam} (owned : s.life = .owned)
include owned

/-- Within one scale factor the counter restarts with the period it had, whether it ran before or not (R92). -/
theorem exec_setCam_sameScale (same : scale mode = scale (Cam.ofCode s.tim.cms)) :
    exec (.setCam mode) s = .next { s with
      tim := { s.tim with cen := true, cms := mode.code }, rsp := some ⟨.ok, 0#32⟩,
      port := s.port ++ [.rd .cms (s.tim.cms.setWidth 32), .rd .arr s.tim.arr, .wr .cen 0#32,
        .wr .cms (camValue mode), .wr .cen 1#32] } := by
  rw [exec_setCam_owned mode owned, if_neg (not_not.mpr same), conclude_regWr]
  simp only [camSwitched, write_cen, boolArg_getLsbD_zero, List.append_assoc]
  rfl

/-- Across scale factors the period is the one of the frequency the old mode gave (R92). -/
theorem exec_setCam_rescaled {p : Nat} (other : scale mode ≠ scale (Cam.ofCode s.tim.cms))
    (period : periodFromFreq s.straps (freqFromPeriod s.straps s.tim.arr.toNat (Cam.ofCode s.tim.cms)) mode = .ok p) :
    exec (.setCam mode) s = .next { s with
      tim := { s.tim with cen := true, cms := mode.code, arr := BitVec.ofNat 32 p }, rsp := some ⟨.ok, 0#32⟩,
      port := s.port ++ [.rd .cms (s.tim.cms.setWidth 32), .rd .arr s.tim.arr, .wr .cen 0#32,
        .wr .cms (camValue mode), .wr .arr (BitVec.ofNat 32 p), .wr .cen 1#32] } := by
  rw [exec_setCam_owned mode owned, if_pos other, withPeriod_ok (s := camSwitched mode s) period rfl, conclude_regWr]
  simp only [regWr, camSwitched, write_arr, write_cen, boolArg_getLsbD_zero, List.append_assoc]
  rfl

/-- A frequency that the new mode has no period for stops the command half way, in the switched state (R92). -/
theorem exec_setCam_freqRange (other : scale mode ≠ scale (Cam.ofCode s.tim.cms))
    (noPeriod : periodFromFreq s.straps (freqFromPeriod s.straps s.tim.arr.toNat (Cam.ofCode s.tim.cms)) mode =
      .error .freqRange) :
    exec (.setCam mode) s = .next (raiseFault (encode (.setCam mode)) .freqRange (camSwitched mode s)) := by
  rw [exec_setCam_owned mode owned, if_pos other, withPeriod_freqRange (s := camSwitched mode s) noPeriod rfl,
    conclude_raised]

end SetCam

/-! ## `INIT` -/

/-- Steps 1 to 3 of `INIT`: the clock on, the block reset, the mode written (R82). -/
def initConfigured (mode : Cam) (s : State) : State :=
  regWr .cms (camValue mode) (periphReset { s with clkEn := true })

/-- Steps 5 and 6 of `INIT`: the period written, the counter and on `ADV` the outputs enabled (R82). -/
def initStarted (p : Word) (s : State) : State := enableOutputs true (regWr .cen (boolArg true) (regWr .arr p s))

/-- Steps 7 and 8 of `INIT`: PWM mode 1 on the four channels, the timer owned (R82). -/
def initOwned (s : State) : State :=
  { [Channel.ch1, .ch2, .ch3, .ch4].foldl (fun s ch => regWr (.ocm ch) (ocmValue .pwm1) s) s with life := .owned }

theorem exec_init_unowned {s : State} (f : Word) (mode : Cam) (unowned : s.life = .unowned) :
    exec (.init f mode) s = conclude (encode (.init f mode)) (withPeriod f.toNat mode (initConfigured mode s)
      fun p => .done 0#32 (initOwned (initStarted p (initConfigured mode s)))) := by
  have free : initLifecycleFault s = none := by rw [initLifecycleFault, unowned]
  simp only [exec, execInit, availabilityFault, free, check_none]
  rfl

theorem initConfigured_eq (mode : Cam) (s : State) : initConfigured mode s = { s with
    clkEn := true, tim := { Timer.atReset s.straps.tier with cms := mode.code },
    port := s.port ++ [.periphReset, .wr .cms (camValue mode)] } := by
  simp only [initConfigured, regWr, periphReset_tim, periphReset_port, write_cms, camValue_bits, List.append_assoc]
  rfl

theorem initStarted_eq (p : Word) {s : State} (disabled : s.tim.moe = false) : initStarted p s = { s with
    tim := { s.tim with arr := p, cen := true, moe := decide (s.straps.tier = .adv) },
    port := s.port ++ [.wr .arr p, .wr .cen 1#32] ++ (if s.straps.tier = .adv then [.wr .moe 1#32] else []) } := by
  obtain ⟨adv : s.straps.tier = .adv, written⟩ | ⟨gp : s.straps.tier ≠ .adv, kept⟩ :=
    enableOutputs_cases true (regWr .cen (boolArg true) (regWr .arr p s))
  · simp only [initStarted, written]
    simp [regWr, boolArg, adv]
  · simp only [initStarted, kept]
    simp [regWr, boolArg, gp, disabled]

theorem initOwned_eq (s : State) : initOwned s = { s with
    life := .owned, tim := { s.tim with ocm := PerChannel.const 6#3 },
    port := s.port ++ [.wr (.ocm .ch1) 6#32, .wr (.ocm .ch2) 6#32, .wr (.ocm .ch3) 6#32, .wr (.ocm .ch4) 6#32] } := by
  simp only [initOwned, List.foldl_cons, List.foldl_nil, regWr, write_ocm, ocmValue_bits, List.append_assoc]
  rfl

/-- The block as a completed `INIT` leaves it, whatever it held before (R82). -/
theorem exec_init_period {s : State} {f : Word} {mode : Cam} {p : Nat} (unowned : s.life = .unowned)
    (period : periodFromFreq s.straps f.toNat mode = .ok p) : exec (.init f mode) s = .next { s with
      clkEn := true, life := .owned, rsp := some ⟨.ok, 0#32⟩,
      tim := { Timer.atReset s.straps.tier with
        cen := true, cms := mode.code, arr := BitVec.ofNat 32 p, ocm := PerChannel.const 6#3,
        moe := decide (s.straps.tier = .adv) },
      port := s.port
        ++ [.periphReset, .wr .cms (camValue mode), .wr .arr (BitVec.ofNat 32 p), .wr .cen 1#32]
        ++ (if s.straps.tier = .adv then [.wr .moe 1#32] else [])
        ++ [.wr (.ocm .ch1) 6#32, .wr (.ocm .ch2) 6#32, .wr (.ocm .ch3) 6#32, .wr (.ocm .ch4) 6#32] } := by
  have disabled : (initConfigured mode s).tim.moe = false := rfl
  rw [exec_init_unowned f mode unowned, withPeriod_ok (s := initConfigured mode s) period rfl, conclude_done,
    initOwned_eq, initStarted_eq _ disabled, initConfigured_eq]
  simp only [respond, List.append_assoc, List.cons_append, List.nil_append]

/-- A frequency out of range leaves the timer unowned and stopped, with clock and mode already set (R82). -/
theorem exec_init_freqRange {s : State} {f : Word} {mode : Cam} (unowned : s.life = .unowned)
    (noPeriod : periodFromFreq s.straps f.toNat mode = .error .freqRange) :
    exec (.init f mode) s = .next (raiseFault (encode (.init f mode)) .freqRange { s with
      clkEn := true, tim := { Timer.atReset s.straps.tier with cms := mode.code },
      port := s.port ++ [.periphReset, .wr .cms (camValue mode)] }) := by
  rw [exec_init_unowned f mode unowned, withPeriod_freqRange (s := initConfigured mode s) noPeriod rfl,
    conclude_raised, initConfigured_eq]

/-- The reset value of `ARR`, by tier (R28). -/
theorem atReset_arr (t : Tier) :
    (Timer.atReset t).arr = if t = .gp32 then 0xFFFFFFFF#32 else 0x0000FFFF#32 := by
  cases t <;> decide

end Sys2Proof.Machine

/-! ## The statements on the driver commands -/

namespace Sys2Proof.Proofs

open Sys2Proof.Machine

/-- Settles O20: steps 1 to 3, and then all the others or the fault of step 4. -/
theorem initConfiguresAndStarts : Obligations.InitConfiguresAndStarts := by
  intro s f mode
  refine ⟨fun p => exec_init_period, fun unowned noPeriod => ?_, exec_init_owned f mode, rfl⟩
  rw [exec_init_freqRange unowned noPeriod, ← atReset_arr]
  rfl

/-- Settles O21: no register access at all. -/
theorem dropReleasesOnly : Obligations.DropReleasesOnly :=
  ⟨fun _ => exec_drop_owned, fun _ => exec_drop_unowned, rfl⟩

/-- Settles O22: one write, of 1 to `CCE[ch]`. -/
theorem enableSetsChannelBit : Obligations.EnableSetsChannelBit :=
  fun _ ch => ⟨exec_enable_owned ch, rfl⟩

/-- Settles O23: one write, of 0 to `CCE[ch]`. -/
theorem disableClearsChannelBit : Obligations.DisableClearsChannelBit :=
  fun _ ch => ⟨exec_disable_owned ch, rfl⟩

/-- Settles O24: after the read of `CMS`, the write of `ARR` or the fault. -/
theorem setFreqWritesPeriod : Obligations.SetFreqWritesPeriod :=
  fun _ _ owned => ⟨fun _ => exec_setFreq_period owned, exec_setFreq_freqRange owned, rfl⟩

/-- Settles O25: two reads, of `CMS` and of `ARR`. -/
theorem getFreqAnswersEffectiveFrequency : Obligations.GetFreqAnswersEffectiveFrequency :=
  ⟨fun _ => exec_getFreq_owned, rfl⟩

/-- Settles O26: one read, of `ARR`. -/
theorem getMaxDutyAnswersPeriod : Obligations.GetMaxDutyAnswersPeriod :=
  ⟨fun _ => exec_getMaxDuty_owned, rfl⟩

/-- Settles O28: one read, of `CCR[ch]`, and no comparison. -/
theorem getDutyAnswersCompareValue : Obligations.GetDutyAnswersCompareValue :=
  fun _ ch => ⟨exec_getDuty_owned ch, rfl⟩

/-- Settles O29: one write, to `OCM[ch]`. -/
theorem setOcmWritesCompareMode : Obligations.SetOcmWritesCompareMode :=
  fun _ ch ocm => ⟨exec_setOcm_owned ch ocm, rfl⟩

/-- Settles O30: the switched mode, and from there the restart, the new period and the restart, or the fault. -/
theorem setCamRescalesPeriod : Obligations.SetCamRescalesPeriod :=
  fun _ _ owned => ⟨exec_setCam_sameScale owned,
    fun other => ⟨fun _ => exec_setCam_rescaled owned other, exec_setCam_freqRange owned other⟩, rfl⟩

/-- Settles O31: one read, of `CMS`, all of whose encodings are modes. -/
theorem getCamAnswersMode : Obligations.GetCamAnswersMode :=
  ⟨fun _ => exec_getCam_owned, rfl⟩

end Sys2Proof.Proofs

/-! # The proofs of the exceptions family: what a fault finds and leaves, and the lifecycle conditions

A fault with code 1 to 3 comes from a check, and the checks stand before a command's first operation. So one walk over
the commands (`exec_endsIn`) says both where such a fault is raised and what a completed command has done to `LIFE` and
`CLK_EN`. -/

namespace Sys2Proof.Machine

/-! ## The end of a command's processing -/

theorem enableOutputs_fault (b : Bool) (s : State) : (enableOutputs b s).fault = s.fault := by
  obtain ⟨-, e⟩ | ⟨-, e⟩ := enableOutputs_cases b s <;> simp [e]

theorem enableOutputs_life (b : Bool) (s : State) : (enableOutputs b s).life = s.life := by
  obtain ⟨-, e⟩ | ⟨-, e⟩ := enableOutputs_cases b s <;> simp [e]

/-- What a completed command has done to `LIFE` (R81 to R83). -/
def lifeAfter : Instr → Life → Life
  | .init _ _, _ => .owned
  | .drop, _ => .unowned
  | _, life => life

/-- What a completed command has done to `CLK_EN` (R82). -/
def clkEnAfter : Instr → Bool → Bool
  | .init _ _, _ => true
  | _, clkEn => clkEn

/-- The body of a command accepted in `s` completes with the given `LIFE` and `CLK_EN`, or raises a fault: one of the
checks, in `s` itself, or one of the command's own rule, whose codes are 4 to 7 (R95). -/
def EndsIn (s : State) (life : Life) (clkEn : Bool) : Result → Prop
  | .done _ u => u.fault = s.fault ∧ u.life = life ∧ u.clkEn = clkEn
  | .raised c u => u = s ∨ 3 < c.code.toNat

namespace EndsIn

variable {s : State} {life : Life} {clkEn : Bool}

theorem check {c : Option FaultCode} {r : Result} (h : EndsIn s life clkEn r) :
    EndsIn s life clkEn (check c s r) := by
  cases c with
  | none => exact h
  | some c => exact .inl rfl

theorem regRd {f : Field} {u : State} {k : Word → State → Result}
    (h : EndsIn s life clkEn (k (u.tim.read f) { u with port := u.port ++ [.rd f (u.tim.read f)] })) :
    EndsIn s life clkEn (regRd f u k) := h

/-- The bits in `CMS` always spell a mode, so reading the mode raises nothing (R74). -/
theorem regRdCam {u : State} {k : Cam → State → Result}
    (h : ∀ m, EndsIn s life clkEn (k m { u with port := u.port ++ [.rd .cms (u.tim.cms.setWidth 32)] })) :
    EndsIn s life clkEn (Machine.regRd .cms u fun b u => withCam b u fun m => k m u) := by
  rw [regRd_withCam]
  exact h _

theorem withPeriod {f : Nat} {m : Cam} {u : State} {k : Word → Result} (h : ∀ p, EndsIn s life clkEn (k p)) :
    EndsIn s life clkEn (withPeriod f m u k) := by
  obtain ⟨p, -, -, e⟩ | ⟨-, e⟩ := withPeriod_cases f m u k <;> rw [e]
  · exact h _
  · exact .inr (by decide)

end EndsIn

/-- Every body begins with its checks, and none but those of `INIT` and `DROP` touches `LIFE` or `CLK_EN`. -/
theorem exec_endsIn (i : Instr) (s : State) :
    ∃ r, exec i s = conclude (encode i) r ∧ EndsIn s (lifeAfter i s.life) (clkEnAfter i s.clkEn) r := by
  cases i with
  | init f mode =>
    refine ⟨_, rfl, .check <| .check <| .withPeriod fun p => ?_⟩
    simp [EndsIn, lifeAfter, clkEnAfter, enableOutputs_fault, Safety.enableOutputs_clkEn]
  | drop | enable _ | disable _ | setOcm _ _ | llSetOcm _ _ | llEnableCh _ _ | llSetTimEn _ | llSetDtCkd _
  | llSetDtVal _ | llEnableNch _ _ => exact ⟨_, rfl, .check <| .check ⟨rfl, rfl, rfl⟩⟩
  | getMaxDuty | getDuty _ | llGetCmp _ | llGetMaxCmp | llIsTimEn =>
    exact ⟨_, rfl, .check <| .check <| .regRd ⟨rfl, rfl, rfl⟩⟩
  | getCam | llGetCam => exact ⟨_, rfl, .check <| .check <| .regRdCam fun _ => ⟨rfl, rfl, rfl⟩⟩
  | setFreq f =>
    exact ⟨_, rfl, .check <| .check <| .regRdCam fun _ => .withPeriod fun _ => ⟨rfl, rfl, rfl⟩⟩
  | getFreq => exact ⟨_, rfl, .check <| .check <| .regRdCam fun _ => .regRd ⟨rfl, rfl, rfl⟩⟩
  | setDuty ch v =>
    refine ⟨_, rfl, .check <| .check <| .check <| .regRd ?_⟩
    split
    · exact .inr (by decide)
    · exact ⟨rfl, rfl, rfl⟩
  | setCam mode =>
    refine ⟨_, rfl, .check <| .check <| .regRdCam fun old => .regRd ?_⟩
    dsimp only
    split
    · exact .withPeriod fun _ => ⟨rfl, rfl, rfl⟩
    · exact ⟨rfl, rfl, rfl⟩
  | llEnableOutputs b =>
    exact ⟨_, rfl, .check <| .check
      ⟨enableOutputs_fault .., enableOutputs_life .., Safety.enableOutputs_clkEn ..⟩⟩
  | llSetCmp ch v => exact ⟨_, rfl, .check <| .check <| .check ⟨rfl, rfl, rfl⟩⟩
  | llSetCam mode =>
    refine ⟨_, rfl, .check <| .check <| .regRd ?_⟩
    split
    · exact .inr (by decide)
    · exact ⟨rfl, rfl, rfl⟩

/-- What a command leaves: completed, `LIFE` and `CLK_EN` as said of it; or halted by a check, with nothing but the
latch changed, or by its own rule. -/
theorem exec_ends {i : Instr} {s t : State} (h : exec i s = .next t) :
    (t.fault = s.fault ∧ t.life = lifeAfter i s.life ∧ t.clkEn = clkEnAfter i s.clkEn) ∨
      ∃ c u, t = raiseFault (encode i) c u ∧ (u = s ∨ 3 < c.code.toNat) := by
  obtain ⟨r, e, ends⟩ := exec_endsIn i s
  obtain ⟨d, u, rfl, rfl⟩ | ⟨c, u, rfl, rfl⟩ := conclude_next (e.symm.trans h)
  · exact .inl ends
  · exact .inr ⟨c, u, rfl, ends⟩

/-- The bound of a duty is strict: at `ARR` and above only `ARR` is read (R89, R99). -/
theorem exec_setDuty_dutyRange {s : State} {d : Word} (ch : Channel) (owned : s.life = .owned)
    (fits : s.straps.tier = .gp32 ∨ d.toNat < 65536) (reached : s.tim.arr.toNat ≤ d.toNat) :
    exec (.setDuty ch d) s =
      .next (raiseFault (encode (.setDuty ch d)) .dutyRange { s with port := s.port ++ [.rd .arr s.tim.arr] }) := by
  simp only [exec, execSetDuty, driverCommand_owned _ owned, operandFault_fits fits, check_none, regRd_eq, read_arr,
    ge_iff_le, reached, if_true, conclude_raised]

end Sys2Proof.Machine

namespace Sys2Proof.Safety

open Sys2Proof.Machine

/-! ## A halted engine -/

/-- Without a reset pulse a halted engine only takes the next event, and answers it if it is a word (R104, R111). -/
theorem step_halted {s t : State} (halted : s.fault = true) (noReset : ∀ e ∈ s.input, e ≠ .rst)
    (h : step s = .next t) : t = { s with input := s.input.drop 1, rsp := t.rsp, port := t.port } := by
  obtain ⟨input, rfl⟩ | ⟨rest, input, -⟩ | ⟨w, rest, input, ⟨-, rfl⟩ | ⟨running, -⟩ | ⟨running, -⟩⟩ := step_cases h
  · rw [input]; rfl
  · exact absurd rfl (noReset .rst (by simp [input]))
  · rw [input]; rfl
  all_goals simp [halted] at running

/-! ## The conditions of R108 -/

/-- The row of a condition in the table of R108. -/
def inCondition (s : State) : Condition → Prop
  | .cold => s.fault = false ∧ s.clkEn = false ∧ s.life = .unowned
  | .owned => s.fault = false ∧ s.clkEn = true ∧ s.life = .owned
  | .released => s.fault = false ∧ s.clkEn = true ∧ s.life = .unowned
  | .halted => s.fault = true

/-- A state is in a condition exactly when it matches the condition's row (R108). -/
theorem condition_iff {s : State} {c : Condition} : condition s = some c ↔ inCondition s c := by
  cases fault : s.fault with
  | true => cases c <;> simp [condition, inCondition, fault]
  | false =>
    cases clkEn : s.clkEn <;> cases life : s.life <;> cases c <;> simp [condition, inCondition, fault, clkEn, life]

/-- An engine that a word has not halted has run the word's command to its end. -/
theorem step_completed {s t : State} {w : CmdWord} {rest : List HostEvent} (input : s.input = .cmd w :: rest)
    (h : step s = .next t) (running : t.fault = false) : ∃ i, decode w = .ok i ∧ exec i (s.take rest) = .next t ∧
      s.fault = false ∧ t.life = lifeAfter i s.life ∧ t.clkEn = clkEnAfter i s.clkEn := by
  obtain ⟨input', -⟩ | ⟨_, input', -⟩ | ⟨w', rest', input', answer⟩ := step_cases h
  · simp [input] at input'
  · simp [input] at input'
  obtain ⟨rfl, rfl⟩ : w = w' ∧ rest = rest' := by simpa [input] using input'
  obtain ⟨halted, rfl⟩ | ⟨-, -, rfl⟩ | ⟨unhalted, i, decoded, executed⟩ := answer
  · simp [halted] at running
  · simp at running
  · obtain ⟨-, life, clkEn⟩ | ⟨c, u, rfl, -⟩ := exec_ends executed
    · exact ⟨i, decoded, executed, unhalted, life, clkEn⟩
    · simp at running

/-- On a cold engine no command but `INIT` completes (R108). -/
theorem init_of_cold {i : Instr} {s t : State} (h : exec i s = .next t) (off : s.clkEn = false)
    (unowned : s.life = .unowned) (running : t.fault = false) : ∃ f m, i = .init f m := by
  by_contra notInit
  obtain ⟨g, raises⟩ := exec_cold fun f m e => notInit ⟨f, m, e⟩
  cases (raises s off unowned).symm.trans h
  simp at running

end Sys2Proof.Safety

/-! ## The statements on faults and lifecycle conditions -/

namespace Sys2Proof.Proofs

open Sys2Proof.Machine Sys2Proof.Safety

/-- Settles O13: by induction on the number of steps, each of which takes one event. -/
theorem haltedEngineStaysUntilReset : Obligations.HaltedEngineStaysUntilReset := by
  intro n
  induction n with
  | zero =>
    intro s t _ _ ran
    cases (run_zero s t).mp ran
    rfl
  | succ n ih =>
    intro s t halted noReset ran
    obtain ⟨u, stepped, ran⟩ := (run_succ n s t).mp ran
    have one : u = { s with input := s.input.drop 1, rsp := u.rsp, port := u.port } :=
      step_halted halted noReset stepped
    rw [one] at ran
    refine (ih _ t ?halted ?noReset ran).trans ?both
    case halted => exact halted
    case noReset => exact fun e he => noReset e (List.mem_of_mem_drop he)
    case both => rw [List.drop_drop, Nat.add_comm 1 n]

/-- Settles O15: a fault with a code up to 3 is raised in the state that took the word. -/
theorem earlyFaultsTouchNoRegister : Obligations.EarlyFaultsTouchNoRegister := by
  intro s t stepped unhalted raised early
  obtain ⟨-, rfl⟩ | ⟨rest, -, rfl⟩ | ⟨w, rest, -, ⟨halted, -⟩ | ⟨-, -, rfl⟩ | ⟨-, i, -, executed⟩⟩ := step_cases stepped
  · simp [unhalted] at raised
  · simp at raised
  · simp [unhalted] at halted
  · exact ⟨rfl, rfl, rfl, rfl⟩
  · obtain ⟨kept, -⟩ | ⟨c, u, rfl, rfl | late⟩ := exec_ends executed
    · simp [kept, unhalted] at raised
    · exact ⟨rfl, rfl, rfl, rfl⟩
    · exact absurd early (Nat.not_le.mpr late)

/-- Settles O57: where the word has not halted the engine, its command has completed, and only `INIT` and `DROP` change
the condition. -/
theorem lifecycleConditionsFollowTable : Obligations.LifecycleConditionsFollowTable := by
  intro s t w rest input stepped
  cases raised : t.fault with
  | true =>
    have halted : condition t = some .halted := condition_iff.mpr raised
    exact ⟨fun _ => .inr halted, fun _ => .inr (.inr halted), fun _ => .inr (.inr halted), fun _ => halted⟩
  | false =>
    obtain ⟨i, decoded, executed, unhalted, life, clkEn⟩ := step_completed input stepped raised
    refine ⟨fun cold => ?cold, fun owned => ?owned, fun released => ?released, fun halted => ?halted⟩
    case cold =>
      obtain ⟨-, off, unowned⟩ := condition_iff.mp cold
      obtain ⟨f, m, rfl⟩ := init_of_cold executed off unowned raised
      exact .inl ⟨condition_iff.mpr ⟨raised, clkEn, life⟩, f, m, decoded⟩
    case owned =>
      obtain ⟨-, clocked, owned⟩ := condition_iff.mp owned
      cases i with
      | init f m => exact .inl (condition_iff.mpr ⟨raised, clkEn, life⟩)
      | drop => exact .inr (.inl ⟨condition_iff.mpr ⟨raised, clkEn.trans clocked, life⟩, decoded⟩)
      | _ => exact .inl (condition_iff.mpr ⟨raised, clkEn.trans clocked, life.trans owned⟩)
    case released =>
      obtain ⟨-, clocked, unowned⟩ := condition_iff.mp released
      cases i with
      | init f m => exact .inr (.inl ⟨condition_iff.mpr ⟨raised, clkEn, life⟩, f, m, decoded⟩)
      | drop => exact .inl (condition_iff.mpr ⟨raised, clkEn.trans clocked, life⟩)
      | _ => exact .inl (condition_iff.mpr ⟨raised, clkEn.trans clocked, life.trans unowned⟩)
    case halted => simp [condition_iff, inCondition, unhalted] at halted

/-- Settles O8: an idle step takes nothing from the empty stream. -/
theorem idleEngineHoldsState : Obligations.IdleEngineHoldsState := by
  intro s legal idle
  rw [step_of_legal legal, engineStep_idle idle, ← idle]
  rfl

/-- Settles O10: the fault entry is written as this one update. -/
theorem faultEntryChangesOnlyTheLatch : Obligations.FaultEntryChangesOnlyTheLatch := fun _ _ _ => rfl

/-- Settles O12: step 1 of the command cycle, before any decoding. -/
theorem haltedEngineAnswersHalted : Obligations.HaltedEngineAnswersHalted := by
  intro s w rest legal halted input
  rw [step_of_legal legal, engineStep_halted input halted]
  rfl

/-- Settles O27: after the read of `ARR`, the write of `CCR[ch]` or the fault; the width check comes before the read. -/
theorem setDutyIsStrictlyBounded : Obligations.SetDutyIsStrictlyBounded :=
  fun _ ch _ owned => ⟨exec_setDuty_below ch owned, exec_setDuty_dutyRange ch owned, exec_setDuty_wide ch owned, rfl⟩

end Sys2Proof.Proofs

/-! # The proof of the reset and hazards family: the alignment mode is written only while the counter stands

Three commands write `CMS`, and each has its own reason why `CEN` is 0 there (R115): `INIT` has just reset the timer,
`SET_CAM` has just cleared `CEN`, `LL_SET_CAM` has read `CEN` and faulted on 1. So `Move` says too little, and the walk
over the commands is done again with the trace's replay as what it carries. -/

namespace Sys2Proof.Safety

open Sys2Proof.Machine

/-! ## Traces -/

theorem cmsWrittenStopped_append (t : Tier) (tim : Timer) (a b : List RegOp) :
    cmsWrittenStopped t tim (a ++ b) ↔ cmsWrittenStopped t tim a ∧ cmsWrittenStopped t (applyOps t tim a) b := by
  induction a generalizing tim with
  | nil => simp [cmsWrittenStopped]
  | cons op ops ih => simp [cmsWrittenStopped, ih, and_assoc]

theorem cmsWrittenStopped_singleton (t : Tier) (tim : Timer) (op : RegOp) :
    cmsWrittenStopped t tim [op] ↔ ∀ v, op = .wr .cms v → tim.cen = false :=
  and_iff_left trivial

/-- The trace of `u` leads from the timer block of `s` to that of `u`, and writes `CMS` only at points where `CEN` is
0. -/
def CmsStoppedSince (s u : State) : Prop :=
  u.straps.tier = s.straps.tier ∧ Replays s.tim u ∧ cmsWrittenStopped s.straps.tier s.tim u.port

namespace CmsStoppedSince

variable {s u : State}

theorem take (s : State) (rest : List HostEvent) : CmsStoppedSince s (s.take rest) :=
  ⟨rfl, replays_take s rest, trivial⟩

/-- The replay gives the timer block that the next operation meets, so the condition on it is one on `u` itself. -/
theorem append (h : CmsStoppedSince s u) {v : State} (op : RegOp) (tier : v.straps.tier = u.straps.tier)
    (done : v.tim = applyOp u.straps.tier u.tim op) (recorded : v.port = u.port ++ [op])
    (latest : ∀ f w, op = .rd f w → w = u.tim.read f) (stopped : ∀ w, op = .wr .cms w → u.tim.cen = false) :
    CmsStoppedSince s v := by
  obtain ⟨tierU, replays, before⟩ := h
  have timer : u.tim = applyOps s.straps.tier s.tim u.port := tierU ▸ replays.1
  refine ⟨tier.trans tierU, replays.append op tier done recorded latest, ?_⟩
  rw [recorded, cmsWrittenStopped_append, cmsWrittenStopped_singleton, ← timer]
  exact ⟨before, stopped⟩

theorem read (h : CmsStoppedSince s u) (f : Field) :
    CmsStoppedSince s { u with port := u.port ++ [.rd f (u.tim.read f)] } :=
  h.append (.rd f (u.tim.read f)) rfl rfl rfl (fun _ _ e => by cases e; rfl) nofun

theorem writeCms (h : CmsStoppedSince s u) (v : Word) (stopped : u.tim.cen = false) :
    CmsStoppedSince s (regWr .cms v u) :=
  h.append (.wr .cms v) rfl rfl rfl nofun fun _ _ => stopped

theorem writeOther (h : CmsStoppedSince s u) (f : Field) (v : Word) (other : f ≠ .cms) :
    CmsStoppedSince s (regWr f v u) :=
  h.append (.wr f v) rfl rfl rfl nofun fun _ e => absurd (RegOp.wr.inj e).1 other

theorem periphReset (h : CmsStoppedSince s u) : CmsStoppedSince s (periphReset u) :=
  h.append .periphReset rfl rfl rfl nofun nofun

theorem enableOutputs (h : CmsStoppedSince s u) (b : Bool) : CmsStoppedSince s (enableOutputs b u) := by
  obtain ⟨-, e⟩ | ⟨-, e⟩ := enableOutputs_cases b u <;> rw [e]
  · exact h.writeOther .moe _ nofun
  · exact h

/-- Steps 7 and 8 of `INIT` (R82). -/
theorem pwm1_own (h : CmsStoppedSince s u) :
    CmsStoppedSince s { regWr (.ocm .ch4) (ocmValue .pwm1) (regWr (.ocm .ch3) (ocmValue .pwm1)
      (regWr (.ocm .ch2) (ocmValue .pwm1) (regWr (.ocm .ch1) (ocmValue .pwm1) u))) with life := .owned } :=
  (((h.writeOther (.ocm .ch1) _ nofun).writeOther (.ocm .ch2) _ nofun).writeOther (.ocm .ch3) _ nofun).writeOther
    (.ocm .ch4) _ nofun

end CmsStoppedSince

/-! ## The commands -/

/-- The state a command's pseudocode ends in, at its end or at a fault, has a trace as `CmsStoppedSince` says. -/
def EndsCmsStopped (s : State) : Result → Prop
  | .done _ u => CmsStoppedSince s u
  | .raised _ u => CmsStoppedSince s u

namespace EndsCmsStopped

variable {s u : State}

theorem check {c : Option FaultCode} {r : Result} (h : CmsStoppedSince s u)
    (rest : CmsStoppedSince s u → EndsCmsStopped s r) : EndsCmsStopped s (check c u r) := by
  cases c with
  | none => exact rest h
  | some c => exact h

theorem regRd {f : Field} {k : Word → State → Result} (h : CmsStoppedSince s u)
    (rest : CmsStoppedSince s { u with port := u.port ++ [.rd f (u.tim.read f)] } →
      EndsCmsStopped s (k (u.tim.read f) { u with port := u.port ++ [.rd f (u.tim.read f)] })) :
    EndsCmsStopped s (regRd f u k) := rest (h.read f)

theorem withCam {b : Word} {k : Cam → Result} (h : CmsStoppedSince s u) (rest : ∀ m, EndsCmsStopped s (k m)) :
    EndsCmsStopped s (withCam b u k) := by
  unfold Machine.withCam
  split
  · exact rest _
  · exact h

theorem withPeriod {f : Nat} {m : Cam} {k : Word → Result} (h : CmsStoppedSince s u)
    (rest : ∀ p, EndsCmsStopped s (k p)) : EndsCmsStopped s (withPeriod f m u k) := by
  obtain ⟨p, -, -, e⟩ | ⟨-, e⟩ := withPeriod_cases f m u k <;> rw [e]
  · exact rest _
  · exact h

/-- A command that ends with one write, not of `CMS`. -/
theorem write {d : Word} {f : Field} {v : Word} (h : CmsStoppedSince s u) (other : f ≠ .cms) :
    EndsCmsStopped s (.done d (regWr f v u)) := h.writeOther f v other

end EndsCmsStopped

/-- `INIT` writes `CMS` right after the peripheral reset, which has cleared `CEN` (R82). -/
theorem endsCmsStopped_init (f : Word) (mode : Cam) {s u : State} (h : CmsStoppedSince s u) : ∃ r,
    exec (.init f mode) u = conclude (encode (.init f mode)) r ∧ EndsCmsStopped s r := by
  refine ⟨_, rfl, .check h fun h => .check h fun h => ?_⟩
  have clocked : CmsStoppedSince s { u with clkEn := true } := h
  have moded : CmsStoppedSince s (regWr .cms (camValue mode) (periphReset { u with clkEn := true })) :=
    clocked.periphReset.writeCms _ rfl
  dsimp only
  generalize regWr .cms (camValue mode) (periphReset { u with clkEn := true }) = v at moded ⊢
  refine .withPeriod moded fun p => ?_
  have started := ((moded.writeOther .arr p nofun).writeOther .cen (boolArg true) nofun).enableOutputs true
  exact started.pwm1_own

/-- `SET_CAM` writes `CMS` right after it has cleared `CEN`, with and without the rescaling (R92). -/
theorem endsCmsStopped_setCam (mode : Cam) {s u : State} (h : CmsStoppedSince s u) : ∃ r,
    exec (.setCam mode) u = conclude (encode (.setCam mode)) r ∧ EndsCmsStopped s r := by
  refine ⟨_, rfl, .check h fun h => .check h fun h => .regRd h fun h => .withCam h fun old => .regRd h fun h => ?_⟩
  have moded := (h.writeOther .cen (boolArg false) nofun).writeCms (camValue mode) rfl
  dsimp only
  split
  · exact .withPeriod moded fun p => .write (moded.writeOther .arr p nofun) nofun
  · exact .write moded nofun

/-- `LL_SET_CAM` writes `CMS` only if the `CEN` it has read is 0 (R65). -/
theorem endsCmsStopped_llSetCam (mode : Cam) {s u : State} (h : CmsStoppedSince s u) : ∃ r,
    exec (.llSetCam mode) u = conclude (encode (.llSetCam mode)) r ∧ EndsCmsStopped s r := by
  refine ⟨_, rfl, .check h fun h => .check h fun h => .regRd h fun h => ?_⟩
  split
  · exact h
  · exact h.writeCms _ (Bool.eq_false_iff.mpr (mt (boolArg_eq_one _).mpr ‹_›))

/-- No command writes `CMS` while the counter runs: the three that write it by their own rules, the others because they
do not write it at all. -/
theorem exec_endsCmsStopped (i : Instr) {s u : State} (h : CmsStoppedSince s u) :
    ∃ r, exec i u = conclude (encode i) r ∧ EndsCmsStopped s r := by
  cases i with
  | init f mode => exact endsCmsStopped_init f mode h
  | setCam mode => exact endsCmsStopped_setCam mode h
  | llSetCam mode => exact endsCmsStopped_llSetCam mode h
  | drop => exact ⟨_, rfl, .check h fun h => .check h fun h => h⟩
  | enable _ | disable _ | setOcm _ _ | llSetOcm _ _ | llEnableCh _ _ | llSetTimEn _ | llSetDtCkd _ | llSetDtVal _
  | llEnableNch _ _ => exact ⟨_, rfl, .check h fun h => .check h fun h => .write h nofun⟩
  | getMaxDuty | getDuty _ | llGetCmp _ | llGetMaxCmp | llIsTimEn =>
    exact ⟨_, rfl, .check h fun h => .check h fun h => .regRd h fun h => h⟩
  | getCam | llGetCam =>
    exact ⟨_, rfl, .check h fun h => .check h fun h => .regRd h fun h => .withCam h fun _ => h⟩
  | setFreq f =>
    exact ⟨_, rfl, .check h fun h => .check h fun h => .regRd h fun h => .withCam h fun _ => .withPeriod h fun _ =>
      .write h nofun⟩
  | getFreq =>
    exact ⟨_, rfl, .check h fun h => .check h fun h => .regRd h fun h => .withCam h fun _ => .regRd h fun h => h⟩
  | setDuty ch v =>
    refine ⟨_, rfl, .check h fun h => .check h fun h => .check h fun h => .regRd h fun h => ?_⟩
    split
    · exact h
    · exact .write h nofun
  | llEnableOutputs b => exact ⟨_, rfl, .check h fun h => .check h fun h => h.enableOutputs b⟩
  | llSetCmp ch v => exact ⟨_, rfl, .check h fun h => .check h fun h => .check h fun h => .write h nofun⟩

/-- An answer touches neither timer nor trace. -/
theorem CmsStoppedSince.exec {i : Instr} {s u t : State} (h : CmsStoppedSince s u) (executed : exec i u = .next t) :
    CmsStoppedSince s t := by
  obtain ⟨r, e, ends⟩ := exec_endsCmsStopped i h
  obtain ⟨d, v, rfl, rfl⟩ | ⟨c, v, rfl, rfl⟩ := conclude_next (e.symm.trans executed) <;> exact ends

end Sys2Proof.Safety

/-! ## The statement on the alignment mode -/

namespace Sys2Proof.Proofs

open Sys2Proof.Machine Sys2Proof.Safety

/-- Settles O51: idle, at system reset, halted and at an illegal word the trace is empty; a command starts from the
empty trace. -/
theorem alignmentModeWrittenOnlyWhileStopped : Obligations.AlignmentModeWrittenOnlyWhileStopped := by
  intro s t h
  obtain ⟨-, rfl⟩ | ⟨rest, -, rfl⟩ | ⟨w, rest, -, ⟨-, rfl⟩ | ⟨-, -, rfl⟩ | ⟨-, i, -, executed⟩⟩ := step_cases h
  · trivial
  · trivial
  · trivial
  · trivial
  · obtain ⟨-, -, stopped⟩ := (CmsStoppedSince.take s rest).exec executed
    exact stopped

end Sys2Proof.Proofs
